-- ==== Sys2Proof/Word.lean ====
section
/-! DEFINITION. The word types of the block (spec 00_scope R9) and the machine integers the rules name. -/

namespace Sys2Proof

/-- A byte: 8 bits, numbered 7 to 0 (R9). -/
abbrev Byte := BitVec 8

/-- A register of the window, and a memory address (R15, R39). -/
abbrev Word := BitVec 32

end Sys2Proof
end

