-- ==== Sys2Proof/Config.lean ====
section
/-! DEFINITION. What an implementation fixes (00_scope R8) and the values the spec leaves free. -/

namespace Sys2Proof

/-- The number of bytes of the engine's memory, 2^`ADDR_W` with `ADDR_W` = 32 (R8, R39). -/
def memBytes : Nat := 4294967296

/-- `MAXBITS` (R8): the longest literal/length or distance code. -/
def maxBits : Nat := 15

/-- `CL_MAXBITS` (R8): the longest code-length code. -/
def clMaxBits : Nat := 7

/-- `LL_CAP` (R8): entries of the literal/length table. -/
def llCap : Nat := 288

/-- `DIST_CAP` (R8): entries of the distance table. -/
def distCap : Nat := 32

/-- `CL_CAP` (R8): entries of the code-length table. -/
def clCap : Nat := 19

/-- `LENS_CAP` (R8): entries of the dynamic code-length array. -/
def lensCap : Nat := 320

/-- The OPEN parameter behind `MAX_WORK_BYTES` (R8, D26): no body, so no proof can see its value. -/
opaque Config.maxWorkSetting : BitVec 32

/-- `MAX_WORK_BYTES` (R8): 1 ≤ value ≤ 2^32 − 1, otherwise open (log 14). -/
def Config.maxWorkBytes : Nat := max 1 Config.maxWorkSetting.toNat

/-- `REG_BASE` (R8, D2): OPEN, the register window's address in the host's address map. No rule gives that map a width: any number.
DESIGN CHOICE, safe (log 14). -/
opaque Config.regBase : Nat

/-- Free 32-bit values, the spec's "draws" for registers (R24, R147, U1, U3), one per number (log 7). -/
opaque Config.freeWord : Nat → Word

/-- Free bytes, the spec's "draws" for buffer contents (R141, R147, U1, U2), one per number (log 7, log 8). -/
opaque Config.freeByte : Nat → Byte

/-- Free values for an index past the last entry of a Huffman table's `sym[]`, which no built table reaches (R33, R93; log 23). -/
opaque Config.freeSymbol : Nat → Word

end Sys2Proof
end

