-- ==== Sys2Proof/Syntax.lean ====
section
/-! DEFINITION. The instructions: one constructor per row of spec/opcode_table.json. A constructor holds the
bits of the row's selector that its match and mask leave open. Operands that follow the selector in the stream
(FLG, extra bits, filtered bytes) are read by the meaning, in the order the rule's pseudocode reads them. -/

namespace Sys2Proof

/-- The ten formats of the opcode table; the machine's state chooses which one is read next (30_encoding R71). -/
inductive Format where
  | zlibCmf | blockHeader | clSymbol | litlenSymbol | distSymbol
  | filterType | ctrlWrite | regRead | regWrite | pngChunkType
deriving DecidableEq, Repr

/-- The elements of the stream, the host commands and the chunk types (30_encoding R71). -/
inductive Instr where
  /-- ZHDR: a CMF byte with CM = 8; CINFO is ignored (R100). -/
  | zhdr (cinfo : BitVec 4)
  /-- ZHDR_BAD_CM_0_7: CM 0 to 7 (R100). -/
  | zhdrBadCm0To7 (cinfo : BitVec 4) (cm : BitVec 3)
  /-- ZHDR_BAD_CM_9: CM 9 (R100). -/
  | zhdrBadCm9 (cinfo : BitVec 4)
  /-- ZHDR_BAD_CM_10_11: CM 10 or 11, by its bit 0 (R100). -/
  | zhdrBadCm10To11 (cinfo : BitVec 4) (low : BitVec 1)
  /-- ZHDR_BAD_CM_12_15: CM 12 to 15, by its bits 1:0 (R100). -/
  | zhdrBadCm12To15 (cinfo : BitVec 4) (low : BitVec 2)
  /-- BLOCK_STORED: BTYPE 0 (R57, R101). -/
  | blockStored (bfinal : BitVec 1)
  /-- BLOCK_FIXED: BTYPE 1 (R57, R101). -/
  | blockFixed (bfinal : BitVec 1)
  /-- BLOCK_DYNAMIC: BTYPE 2 (R57, R101). -/
  | blockDynamic (bfinal : BitVec 1)
  /-- BLOCK_RESERVED: BTYPE 3 (R57, R101). -/
  | blockReserved (bfinal : BitVec 1)
  /-- CL: the code length 0 to 15 itself (R109). -/
  | cl (len : BitVec 4)
  /-- CL_16: repeat the previous length (R110). -/
  | cl16
  /-- CL_17: 3 to 10 zero lengths (R111). -/
  | cl17
  /-- CL_18: 11 to 138 zero lengths (R112). -/
  | cl18
  /-- LIT: the literal byte (R118). -/
  | lit (byte : BitVec 8)
  /-- EOB: end of block (R119). -/
  | eob
  /-- LEN_257 to LEN_285: the length symbols of a match (R67, R120). -/
  | len257 | len258 | len259 | len260 | len261 | len262 | len263 | len264 | len265 | len266
  | len267 | len268 | len269 | len270 | len271 | len272 | len273 | len274 | len275 | len276
  | len277 | len278 | len279 | len280 | len281 | len282 | len283 | len284 | len285
  /-- LL_INVALID_286_287: literal/length symbol 286 or 287, by its bit 0 (R124). -/
  | llInvalid286To287 (low : BitVec 1)
  /-- DIST_0 to DIST_29: the distance symbols of a match (R68, R120). -/
  | dist0 | dist1 | dist2 | dist3 | dist4 | dist5 | dist6 | dist7 | dist8 | dist9
  | dist10 | dist11 | dist12 | dist13 | dist14 | dist15 | dist16 | dist17 | dist18 | dist19
  | dist20 | dist21 | dist22 | dist23 | dist24 | dist25 | dist26 | dist27 | dist28 | dist29
  /-- DIST_INVALID_30_31: distance symbol 30 or 31, by its bit 0 (R125). -/
  | distInvalid30To31 (low : BitVec 1)
  /-- FT_NONE: filter type 0 (R131). -/
  | ftNone
  /-- FT_SUB: filter type 1 (R132). -/
  | ftSub
  /-- FT_UP: filter type 2 (R133). -/
  | ftUp
  /-- FT_AVERAGE: filter type 3 (R134). -/
  | ftAverage
  /-- FT_PAETH: filter type 4 (R135). -/
  | ftPaeth
  /-- FT_INVALID_5: filter type 5 (R136). -/
  | ftInvalid5
  /-- FT_INVALID_6_7: filter type 6 or 7, by its bit 0 (R136). -/
  | ftInvalid6To7 (low : BitVec 1)
  /-- FT_INVALID_08_0F: filter types 0x08 to 0x0F, by bits 2:0 (R136). -/
  | ftInvalid08To0F (low : BitVec 3)
  /-- FT_INVALID_10_1F: filter types 0x10 to 0x1F, by bits 3:0 (R136). -/
  | ftInvalid10To1F (low : BitVec 4)
  /-- FT_INVALID_20_3F: filter types 0x20 to 0x3F, by bits 4:0 (R136). -/
  | ftInvalid20To3F (low : BitVec 5)
  /-- FT_INVALID_40_7F: filter types 0x40 to 0x7F, by bits 5:0 (R136). -/
  | ftInvalid40To7F (low : BitVec 6)
  /-- FT_INVALID_80_FF: filter types 0x80 to 0xFF, by bits 6:0 (R136). -/
  | ftInvalid80ToFF (low : BitVec 7)
  /-- SOFT_RESET: a CTRL write with bit 1 set; every other bit is ignored (R138, R141). -/
  | softReset (start : BitVec 1) (irqEn : BitVec 1) (reserved : BitVec 29)
  /-- START: a CTRL write with bits 1:0 = 01; IRQ_EN is written too, bits 31:3 are ignored (R138, R139). -/
  | start (irqEn : BitVec 1) (reserved : BitVec 29)
  /-- SET_IRQ_EN: a CTRL write with bits 1:0 = 00; bits 31:3 are ignored (R138, R142). -/
  | setIrqEn (irqEn : BitVec 1) (reserved : BitVec 29)
  /-- READ_STATUS: a host read of offset 0x04 (R144). -/
  | readStatus
  /-- WRITE_IHDR_WIDTH: a host write of offset 0x08 (R145). -/
  | writeIhdrWidth (data : Word)
  /-- WRITE_IHDR_HEIGHT: a host write of offset 0x0C (R145). -/
  | writeIhdrHeight (data : Word)
  /-- WRITE_IHDR_FMT0: a host write of offset 0x10 (R145). -/
  | writeIhdrFmt0 (data : Word)
  /-- WRITE_IHDR_FMT1: a host write of offset 0x14 (R145). -/
  | writeIhdrFmt1 (data : Word)
  /-- WRITE_SEGTAB_BASE: a host write of offset 0x18 (R145). -/
  | writeSegtabBase (data : Word)
  /-- WRITE_SEG_COUNT: a host write of offset 0x1C (R145). -/
  | writeSegCount (data : Word)
  /-- WRITE_WORK_BASE: a host write of offset 0x20 (R145). -/
  | writeWorkBase (data : Word)
  /-- WRITE_OUT_BASE: a host write of offset 0x24 (R145). -/
  | writeOutBase (data : Word)
  /-- CHUNK_IHDR: the tag bytes 49 48 44 52 (R85). -/
  | chunkIhdr
  /-- CHUNK_IDAT: the tag bytes 49 44 41 54 (R86). -/
  | chunkIdat
  /-- CHUNK_OTHER: any other tag, the tag as a big-endian number (R87). -/
  | chunkOther (tag : BitVec 32)
deriving DecidableEq, Repr

end Sys2Proof
end

