-- ==== Sys2Proof/WellFormed.lean ====
section
/-! DEFINITION. Which terms of Instr are instructions. Every operand is a bit vector of the width its row leaves open, so
one check is left: CHUNK_OTHER is "any other tag" (41_host_container R87, opcode table row CHUNK_OTHER). -/

namespace Sys2Proof

/-- The tag bytes 49 48 44 52 as a big-endian number (R85). -/
def tagIhdr : BitVec 32 := 0x49484452#32

/-- The tag bytes 49 44 41 54 as a big-endian number (R86). -/
def tagIdat : BitVec 32 := 0x49444154#32

/-- An instruction term that some word encodes. -/
def WellFormed : Instr → Bool
  | .chunkOther tag => tag != tagIhdr && tag != tagIdat
  | .zhdr _ | .zhdrBadCm0To7 _ _ | .zhdrBadCm9 _ | .zhdrBadCm10To11 _ _ | .zhdrBadCm12To15 _ _
  | .blockStored _ | .blockFixed _ | .blockDynamic _ | .blockReserved _ | .cl _ | .cl16 | .cl17 | .cl18
  | .lit _ | .eob | .len257 | .len258 | .len259 | .len260 | .len261 | .len262 | .len263 | .len264 | .len265
  | .len266 | .len267 | .len268 | .len269 | .len270 | .len271 | .len272 | .len273 | .len274 | .len275
  | .len276 | .len277 | .len278 | .len279 | .len280 | .len281 | .len282 | .len283 | .len284 | .len285
  | .llInvalid286To287 _ | .dist0 | .dist1 | .dist2 | .dist3 | .dist4 | .dist5 | .dist6 | .dist7 | .dist8
  | .dist9 | .dist10 | .dist11 | .dist12 | .dist13 | .dist14 | .dist15 | .dist16 | .dist17 | .dist18
  | .dist19 | .dist20 | .dist21 | .dist22 | .dist23 | .dist24 | .dist25 | .dist26 | .dist27 | .dist28
  | .dist29 | .distInvalid30To31 _ | .ftNone | .ftSub | .ftUp | .ftAverage | .ftPaeth | .ftInvalid5
  | .ftInvalid6To7 _ | .ftInvalid08To0F _ | .ftInvalid10To1F _ | .ftInvalid20To3F _ | .ftInvalid40To7F _
  | .ftInvalid80ToFF _ | .softReset _ _ _ | .start _ _ | .setIrqEn _ _ | .readStatus | .writeIhdrWidth _
  | .writeIhdrHeight _ | .writeIhdrFmt0 _ | .writeIhdrFmt1 _ | .writeSegtabBase _ | .writeSegCount _
  | .writeWorkBase _ | .writeOutBase _ | .chunkIhdr | .chunkIdat => true

end Sys2Proof
end

