-- ==== Sys2Proof/Decode.lean ====
section
/-! DEFINITION. Decoding and encoding of the selectors of spec/opcode_table.json (30_encoding R56 to R72).
A selector is numbered as the table numbers it: bit 0 is the first bit of a fixed-width field, and the value of a decoded
Huffman symbol. It is held in 40 bits, the longest one (a register write: 8 bits of offset, then the 32 data bits).
The format is an argument, because the rows of different formats share their numbers: "a decoder of the stream chooses the
next element from STATE alone" (R71). -/

namespace Sys2Proof

/-- Why a word is no instruction of its format. -/
inductive DecodeError where
  /-- A bit above the format's width is set. -/
  | strayBits
  /-- No row of the format holds this value (code-length symbols 19 to 31, literal/length symbols 288 to 511). -/
  | noSuchSymbol
  /-- A register offset that is no multiple of 4: "unspecified effect (model: refuse)" (20_memory R46). -/
  | unalignedOffset
  /-- A register offset that has no row (10_state R15, R26). -/
  | noSuchRegister
deriving DecidableEq, Repr

/-- The number of selector bits of a format, operand words included. -/
def Format.width : Format → Nat
  | .zlibCmf => 8
  | .blockHeader => 3
  | .clSymbol => 5
  | .litlenSymbol => 9
  | .distSymbol => 5
  | .filterType => 8
  | .ctrlWrite => 32
  | .regRead => 8
  | .regWrite => 40
  | .pngChunkType => 32

/-- CMF byte: CM in bits 3:0, CINFO in bits 7:4 (R56). -/
def decodeZlibCmf (w : BitVec 40) : Except DecodeError Instr :=
  let cinfo := w.extractLsb' 4 4
  let cm := w.extractLsb' 0 4
  if cm = 8#4 then .ok (.zhdr cinfo)
  else if w.extractLsb' 3 1 = 0#1 then .ok (.zhdrBadCm0To7 cinfo (w.extractLsb' 0 3))
  else if cm = 9#4 then .ok (.zhdrBadCm9 cinfo)
  else if w.extractLsb' 1 3 = 5#3 then .ok (.zhdrBadCm10To11 cinfo (w.extractLsb' 0 1))
  else .ok (.zhdrBadCm12To15 cinfo (w.extractLsb' 0 2))

/-- Block header: BFINAL in bit 0, BTYPE in bits 2:1 (R57). -/
def decodeBlockHeader (w : BitVec 40) : Except DecodeError Instr :=
  let bfinal := w.extractLsb' 0 1
  let btype := w.extractLsb' 1 2
  if btype = 0#2 then .ok (.blockStored bfinal)
  else if btype = 1#2 then .ok (.blockFixed bfinal)
  else if btype = 2#2 then .ok (.blockDynamic bfinal)
  else .ok (.blockReserved bfinal)

/-- Code-length symbol (R61). -/
def decodeClSymbol (w : BitVec 40) : Except DecodeError Instr :=
  if w.extractLsb' 4 1 = 0#1 then .ok (.cl (w.extractLsb' 0 4))
  else match w.toNat with
    | 16 => .ok .cl16
    | 17 => .ok .cl17
    | 18 => .ok .cl18
    | _ => .error .noSuchSymbol

/-- Literal/length symbol (R62, R67, R72). -/
def decodeLitlenSymbol (w : BitVec 40) : Except DecodeError Instr :=
  if w.extractLsb' 8 1 = 0#1 then .ok (.lit (w.extractLsb' 0 8))
  else match w.toNat with
    | 256 => .ok .eob
    | 257 => .ok .len257
    | 258 => .ok .len258
    | 259 => .ok .len259
    | 260 => .ok .len260
    | 261 => .ok .len261
    | 262 => .ok .len262
    | 263 => .ok .len263
    | 264 => .ok .len264
    | 265 => .ok .len265
    | 266 => .ok .len266
    | 267 => .ok .len267
    | 268 => .ok .len268
    | 269 => .ok .len269
    | 270 => .ok .len270
    | 271 => .ok .len271
    | 272 => .ok .len272
    | 273 => .ok .len273
    | 274 => .ok .len274
    | 275 => .ok .len275
    | 276 => .ok .len276
    | 277 => .ok .len277
    | 278 => .ok .len278
    | 279 => .ok .len279
    | 280 => .ok .len280
    | 281 => .ok .len281
    | 282 => .ok .len282
    | 283 => .ok .len283
    | 284 => .ok .len284
    | 285 => .ok .len285
    | 286 => .ok (.llInvalid286To287 0#1)
    | 287 => .ok (.llInvalid286To287 1#1)
    | _ => .error .noSuchSymbol

/-- Distance symbol (R68, R72); every 5-bit value has a row. -/
def decodeDistSymbol (w : BitVec 40) : Except DecodeError Instr :=
  match w.toNat with
  | 0 => .ok .dist0
  | 1 => .ok .dist1
  | 2 => .ok .dist2
  | 3 => .ok .dist3
  | 4 => .ok .dist4
  | 5 => .ok .dist5
  | 6 => .ok .dist6
  | 7 => .ok .dist7
  | 8 => .ok .dist8
  | 9 => .ok .dist9
  | 10 => .ok .dist10
  | 11 => .ok .dist11
  | 12 => .ok .dist12
  | 13 => .ok .dist13
  | 14 => .ok .dist14
  | 15 => .ok .dist15
  | 16 => .ok .dist16
  | 17 => .ok .dist17
  | 18 => .ok .dist18
  | 19 => .ok .dist19
  | 20 => .ok .dist20
  | 21 => .ok .dist21
  | 22 => .ok .dist22
  | 23 => .ok .dist23
  | 24 => .ok .dist24
  | 25 => .ok .dist25
  | 26 => .ok .dist26
  | 27 => .ok .dist27
  | 28 => .ok .dist28
  | 29 => .ok .dist29
  | 30 => .ok (.distInvalid30To31 0#1)
  | 31 => .ok (.distInvalid30To31 1#1)
  | _ => .error .noSuchSymbol

/-- Filter-type byte (R64, R72); every byte has a row. -/
def decodeFilterType (w : BitVec 40) : Except DecodeError Instr :=
  if w.extractLsb' 7 1 = 1#1 then .ok (.ftInvalid80ToFF (w.extractLsb' 0 7))
  else if w.extractLsb' 6 1 = 1#1 then .ok (.ftInvalid40To7F (w.extractLsb' 0 6))
  else if w.extractLsb' 5 1 = 1#1 then .ok (.ftInvalid20To3F (w.extractLsb' 0 5))
  else if w.extractLsb' 4 1 = 1#1 then .ok (.ftInvalid10To1F (w.extractLsb' 0 4))
  else if w.extractLsb' 3 1 = 1#1 then .ok (.ftInvalid08To0F (w.extractLsb' 0 3))
  else match w.toNat with
    | 0 => .ok .ftNone
    | 1 => .ok .ftSub
    | 2 => .ok .ftUp
    | 3 => .ok .ftAverage
    | 4 => .ok .ftPaeth
    | 5 => .ok .ftInvalid5
    | 6 => .ok (.ftInvalid6To7 0#1)
    | 7 => .ok (.ftInvalid6To7 1#1)
    | _ => .error .noSuchSymbol

/-- CTRL write: START in bit 0, SOFT_RESET in bit 1, IRQ_EN in bit 2, the rest ignored; SOFT_RESET wins (R16, R138). -/
def decodeCtrlWrite (w : BitVec 40) : Except DecodeError Instr :=
  let irqEn := w.extractLsb' 2 1
  let reserved := w.extractLsb' 3 29
  if w.extractLsb' 1 1 = 1#1 then .ok (.softReset (w.extractLsb' 0 1) irqEn reserved)
  else if w.extractLsb' 0 1 = 1#1 then .ok (.start irqEn reserved)
  else .ok (.setIrqEn irqEn reserved)

/-- Register read by offset: STATUS is the one row (R144). -/
def decodeRegRead (w : BitVec 40) : Except DecodeError Instr :=
  if w.extractLsb' 0 2 ≠ 0#2 then .error .unalignedOffset
  else if w.extractLsb' 0 8 = 0x04#8 then .ok .readStatus
  else .error .noSuchRegister

/-- Register write: the offset in bits 7:0, the data in bits 39:8 (R145). -/
def decodeRegWrite (w : BitVec 40) : Except DecodeError Instr :=
  let data := w.extractLsb' 8 32
  if w.extractLsb' 0 2 ≠ 0#2 then .error .unalignedOffset
  else if w.extractLsb' 0 8 = 0x08#8 then .ok (.writeIhdrWidth data)
  else if w.extractLsb' 0 8 = 0x0C#8 then .ok (.writeIhdrHeight data)
  else if w.extractLsb' 0 8 = 0x10#8 then .ok (.writeIhdrFmt0 data)
  else if w.extractLsb' 0 8 = 0x14#8 then .ok (.writeIhdrFmt1 data)
  else if w.extractLsb' 0 8 = 0x18#8 then .ok (.writeSegtabBase data)
  else if w.extractLsb' 0 8 = 0x1C#8 then .ok (.writeSegCount data)
  else if w.extractLsb' 0 8 = 0x20#8 then .ok (.writeWorkBase data)
  else if w.extractLsb' 0 8 = 0x24#8 then .ok (.writeOutBase data)
  else .error .noSuchRegister

/-- Chunk tag as a big-endian number; CHUNK_OTHER is tried after the two named tags (R85 to R87). -/
def decodePngChunkType (w : BitVec 40) : Except DecodeError Instr :=
  let tag := w.extractLsb' 0 32
  if tag = tagIhdr then .ok .chunkIhdr
  else if tag = tagIdat then .ok .chunkIdat
  else .ok (.chunkOther tag)

/-- The instruction a selector of a format stands for, or the name of the reason why there is none. -/
def decode (f : Format) (w : BitVec 40) : Except DecodeError Instr :=
  if 2 ^ f.width ≤ w.toNat then .error .strayBits
  else match f with
    | .zlibCmf => decodeZlibCmf w
    | .blockHeader => decodeBlockHeader w
    | .clSymbol => decodeClSymbol w
    | .litlenSymbol => decodeLitlenSymbol w
    | .distSymbol => decodeDistSymbol w
    | .filterType => decodeFilterType w
    | .ctrlWrite => decodeCtrlWrite w
    | .regRead => decodeRegRead w
    | .regWrite => decodeRegWrite w
    | .pngChunkType => decodePngChunkType w

/-- The format whose row an instruction is. -/
def formatOf : Instr → Format
  | .zhdr _ | .zhdrBadCm0To7 _ _ | .zhdrBadCm9 _ | .zhdrBadCm10To11 _ _ | .zhdrBadCm12To15 _ _ => .zlibCmf
  | .blockStored _ | .blockFixed _ | .blockDynamic _ | .blockReserved _ => .blockHeader
  | .cl _ | .cl16 | .cl17 | .cl18 => .clSymbol
  | .lit _ | .eob | .len257 | .len258 | .len259 | .len260 | .len261 | .len262 | .len263 | .len264 | .len265
  | .len266 | .len267 | .len268 | .len269 | .len270 | .len271 | .len272 | .len273 | .len274 | .len275 | .len276
  | .len277 | .len278 | .len279 | .len280 | .len281 | .len282 | .len283 | .len284 | .len285
  | .llInvalid286To287 _ => .litlenSymbol
  | .dist0 | .dist1 | .dist2 | .dist3 | .dist4 | .dist5 | .dist6 | .dist7 | .dist8 | .dist9 | .dist10 | .dist11
  | .dist12 | .dist13 | .dist14 | .dist15 | .dist16 | .dist17 | .dist18 | .dist19 | .dist20 | .dist21 | .dist22
  | .dist23 | .dist24 | .dist25 | .dist26 | .dist27 | .dist28 | .dist29 | .distInvalid30To31 _ => .distSymbol
  | .ftNone | .ftSub | .ftUp | .ftAverage | .ftPaeth | .ftInvalid5 | .ftInvalid6To7 _ | .ftInvalid08To0F _
  | .ftInvalid10To1F _ | .ftInvalid20To3F _ | .ftInvalid40To7F _ | .ftInvalid80ToFF _ => .filterType
  | .softReset _ _ _ | .start _ _ | .setIrqEn _ _ => .ctrlWrite
  | .readStatus => .regRead
  | .writeIhdrWidth _ | .writeIhdrHeight _ | .writeIhdrFmt0 _ | .writeIhdrFmt1 _ | .writeSegtabBase _
  | .writeSegCount _ | .writeWorkBase _ | .writeOutBase _ => .regWrite
  | .chunkIhdr | .chunkIdat | .chunkOther _ => .pngChunkType

/-- The selector of an instruction, written from the encodings of R56 to R72. `a ++ b` has `a` in the upper bits. -/
def encode : Instr → BitVec 40
  | .zhdr cinfo => (cinfo ++ 8#4).setWidth 40
  | .zhdrBadCm0To7 cinfo cm => (cinfo ++ 0#1 ++ cm).setWidth 40
  | .zhdrBadCm9 cinfo => (cinfo ++ 9#4).setWidth 40
  | .zhdrBadCm10To11 cinfo low => (cinfo ++ 5#3 ++ low).setWidth 40
  | .zhdrBadCm12To15 cinfo low => (cinfo ++ 3#2 ++ low).setWidth 40
  | .blockStored bfinal => (0#2 ++ bfinal).setWidth 40
  | .blockFixed bfinal => (1#2 ++ bfinal).setWidth 40
  | .blockDynamic bfinal => (2#2 ++ bfinal).setWidth 40
  | .blockReserved bfinal => (3#2 ++ bfinal).setWidth 40
  | .cl len => len.setWidth 40
  | .cl16 => 16#40
  | .cl17 => 17#40
  | .cl18 => 18#40
  | .lit byte => byte.setWidth 40
  | .eob => 256#40
  | .len257 => 257#40
  | .len258 => 258#40
  | .len259 => 259#40
  | .len260 => 260#40
  | .len261 => 261#40
  | .len262 => 262#40
  | .len263 => 263#40
  | .len264 => 264#40
  | .len265 => 265#40
  | .len266 => 266#40
  | .len267 => 267#40
  | .len268 => 268#40
  | .len269 => 269#40
  | .len270 => 270#40
  | .len271 => 271#40
  | .len272 => 272#40
  | .len273 => 273#40
  | .len274 => 274#40
  | .len275 => 275#40
  | .len276 => 276#40
  | .len277 => 277#40
  | .len278 => 278#40
  | .len279 => 279#40
  | .len280 => 280#40
  | .len281 => 281#40
  | .len282 => 282#40
  | .len283 => 283#40
  | .len284 => 284#40
  | .len285 => 285#40
  | .llInvalid286To287 low => (143#8 ++ low).setWidth 40
  | .dist0 => 0#40
  | .dist1 => 1#40
  | .dist2 => 2#40
  | .dist3 => 3#40
  | .dist4 => 4#40
  | .dist5 => 5#40
  | .dist6 => 6#40
  | .dist7 => 7#40
  | .dist8 => 8#40
  | .dist9 => 9#40
  | .dist10 => 10#40
  | .dist11 => 11#40
  | .dist12 => 12#40
  | .dist13 => 13#40
  | .dist14 => 14#40
  | .dist15 => 15#40
  | .dist16 => 16#40
  | .dist17 => 17#40
  | .dist18 => 18#40
  | .dist19 => 19#40
  | .dist20 => 20#40
  | .dist21 => 21#40
  | .dist22 => 22#40
  | .dist23 => 23#40
  | .dist24 => 24#40
  | .dist25 => 25#40
  | .dist26 => 26#40
  | .dist27 => 27#40
  | .dist28 => 28#40
  | .dist29 => 29#40
  | .distInvalid30To31 low => (15#4 ++ low).setWidth 40
  | .ftNone => 0#40
  | .ftSub => 1#40
  | .ftUp => 2#40
  | .ftAverage => 3#40
  | .ftPaeth => 4#40
  | .ftInvalid5 => 5#40
  | .ftInvalid6To7 low => (3#7 ++ low).setWidth 40
  | .ftInvalid08To0F low => (1#5 ++ low).setWidth 40
  | .ftInvalid10To1F low => (1#4 ++ low).setWidth 40
  | .ftInvalid20To3F low => (1#3 ++ low).setWidth 40
  | .ftInvalid40To7F low => (1#2 ++ low).setWidth 40
  | .ftInvalid80ToFF low => (1#1 ++ low).setWidth 40
  | .softReset start irqEn reserved => (reserved ++ irqEn ++ 1#1 ++ start).setWidth 40
  | .start irqEn reserved => (reserved ++ irqEn ++ 1#2).setWidth 40
  | .setIrqEn irqEn reserved => (reserved ++ irqEn ++ 0#2).setWidth 40
  | .readStatus => 4#40
  | .writeIhdrWidth data => data ++ 0x08#8
  | .writeIhdrHeight data => data ++ 0x0C#8
  | .writeIhdrFmt0 data => data ++ 0x10#8
  | .writeIhdrFmt1 data => data ++ 0x14#8
  | .writeSegtabBase data => data ++ 0x18#8
  | .writeSegCount data => data ++ 0x1C#8
  | .writeWorkBase data => data ++ 0x20#8
  | .writeOutBase data => data ++ 0x24#8
  | .chunkIhdr => 0x49484452#40
  | .chunkIdat => 0x49444154#40
  | .chunkOther tag => tag.setWidth 40

/-- A row's mask and match, as spec/opcode_table.json writes them. -/
structure RowBits where
  mask : BitVec 40
  value : BitVec 40
deriving DecidableEq, Repr

/-- The mask and match of an instruction's row. -/
def rowBits : Instr → RowBits
  | .zhdr _ => ⟨0x0F, 0x08⟩
  | .zhdrBadCm0To7 _ _ => ⟨0x08, 0x00⟩
  | .zhdrBadCm9 _ => ⟨0x0F, 0x09⟩
  | .zhdrBadCm10To11 _ _ => ⟨0x0E, 0x0A⟩
  | .zhdrBadCm12To15 _ _ => ⟨0x0C, 0x0C⟩
  | .blockStored _ => ⟨0b110, 0b000⟩
  | .blockFixed _ => ⟨0b110, 0b010⟩
  | .blockDynamic _ => ⟨0b110, 0b100⟩
  | .blockReserved _ => ⟨0b110, 0b110⟩
  | .cl _ => ⟨0x10, 0x00⟩
  | .cl16 => ⟨0x1F, 0x10⟩
  | .cl17 => ⟨0x1F, 0x11⟩
  | .cl18 => ⟨0x1F, 0x12⟩
  | .lit _ => ⟨0x100, 0x000⟩
  | .eob => ⟨0x1FF, 0x100⟩
  | .len257 => ⟨0x1FF, 0x101⟩
  | .len258 => ⟨0x1FF, 0x102⟩
  | .len259 => ⟨0x1FF, 0x103⟩
  | .len260 => ⟨0x1FF, 0x104⟩
  | .len261 => ⟨0x1FF, 0x105⟩
  | .len262 => ⟨0x1FF, 0x106⟩
  | .len263 => ⟨0x1FF, 0x107⟩
  | .len264 => ⟨0x1FF, 0x108⟩
  | .len265 => ⟨0x1FF, 0x109⟩
  | .len266 => ⟨0x1FF, 0x10A⟩
  | .len267 => ⟨0x1FF, 0x10B⟩
  | .len268 => ⟨0x1FF, 0x10C⟩
  | .len269 => ⟨0x1FF, 0x10D⟩
  | .len270 => ⟨0x1FF, 0x10E⟩
  | .len271 => ⟨0x1FF, 0x10F⟩
  | .len272 => ⟨0x1FF, 0x110⟩
  | .len273 => ⟨0x1FF, 0x111⟩
  | .len274 => ⟨0x1FF, 0x112⟩
  | .len275 => ⟨0x1FF, 0x113⟩
  | .len276 => ⟨0x1FF, 0x114⟩
  | .len277 => ⟨0x1FF, 0x115⟩
  | .len278 => ⟨0x1FF, 0x116⟩
  | .len279 => ⟨0x1FF, 0x117⟩
  | .len280 => ⟨0x1FF, 0x118⟩
  | .len281 => ⟨0x1FF, 0x119⟩
  | .len282 => ⟨0x1FF, 0x11A⟩
  | .len283 => ⟨0x1FF, 0x11B⟩
  | .len284 => ⟨0x1FF, 0x11C⟩
  | .len285 => ⟨0x1FF, 0x11D⟩
  | .llInvalid286To287 _ => ⟨0x1FE, 0x11E⟩
  | .dist0 => ⟨0x1F, 0x00⟩
  | .dist1 => ⟨0x1F, 0x01⟩
  | .dist2 => ⟨0x1F, 0x02⟩
  | .dist3 => ⟨0x1F, 0x03⟩
  | .dist4 => ⟨0x1F, 0x04⟩
  | .dist5 => ⟨0x1F, 0x05⟩
  | .dist6 => ⟨0x1F, 0x06⟩
  | .dist7 => ⟨0x1F, 0x07⟩
  | .dist8 => ⟨0x1F, 0x08⟩
  | .dist9 => ⟨0x1F, 0x09⟩
  | .dist10 => ⟨0x1F, 0x0A⟩
  | .dist11 => ⟨0x1F, 0x0B⟩
  | .dist12 => ⟨0x1F, 0x0C⟩
  | .dist13 => ⟨0x1F, 0x0D⟩
  | .dist14 => ⟨0x1F, 0x0E⟩
  | .dist15 => ⟨0x1F, 0x0F⟩
  | .dist16 => ⟨0x1F, 0x10⟩
  | .dist17 => ⟨0x1F, 0x11⟩
  | .dist18 => ⟨0x1F, 0x12⟩
  | .dist19 => ⟨0x1F, 0x13⟩
  | .dist20 => ⟨0x1F, 0x14⟩
  | .dist21 => ⟨0x1F, 0x15⟩
  | .dist22 => ⟨0x1F, 0x16⟩
  | .dist23 => ⟨0x1F, 0x17⟩
  | .dist24 => ⟨0x1F, 0x18⟩
  | .dist25 => ⟨0x1F, 0x19⟩
  | .dist26 => ⟨0x1F, 0x1A⟩
  | .dist27 => ⟨0x1F, 0x1B⟩
  | .dist28 => ⟨0x1F, 0x1C⟩
  | .dist29 => ⟨0x1F, 0x1D⟩
  | .distInvalid30To31 _ => ⟨0x1E, 0x1E⟩
  | .ftNone => ⟨0xFF, 0x00⟩
  | .ftSub => ⟨0xFF, 0x01⟩
  | .ftUp => ⟨0xFF, 0x02⟩
  | .ftAverage => ⟨0xFF, 0x03⟩
  | .ftPaeth => ⟨0xFF, 0x04⟩
  | .ftInvalid5 => ⟨0xFF, 0x05⟩
  | .ftInvalid6To7 _ => ⟨0xFE, 0x06⟩
  | .ftInvalid08To0F _ => ⟨0xF8, 0x08⟩
  | .ftInvalid10To1F _ => ⟨0xF0, 0x10⟩
  | .ftInvalid20To3F _ => ⟨0xE0, 0x20⟩
  | .ftInvalid40To7F _ => ⟨0xC0, 0x40⟩
  | .ftInvalid80ToFF _ => ⟨0x80, 0x80⟩
  | .softReset _ _ _ => ⟨0x2, 0x2⟩
  | .start _ _ => ⟨0x3, 0x1⟩
  | .setIrqEn _ _ => ⟨0x3, 0x0⟩
  | .readStatus => ⟨0xFC, 0x04⟩
  | .writeIhdrWidth _ => ⟨0xFC, 0x08⟩
  | .writeIhdrHeight _ => ⟨0xFC, 0x0C⟩
  | .writeIhdrFmt0 _ => ⟨0xFC, 0x10⟩
  | .writeIhdrFmt1 _ => ⟨0xFC, 0x14⟩
  | .writeSegtabBase _ => ⟨0xFC, 0x18⟩
  | .writeSegCount _ => ⟨0xFC, 0x1C⟩
  | .writeWorkBase _ => ⟨0xFC, 0x20⟩
  | .writeOutBase _ => ⟨0xFC, 0x24⟩
  | .chunkIhdr => ⟨0xFFFFFFFF, 0x49484452⟩
  | .chunkIdat => ⟨0xFFFFFFFF, 0x49444154⟩
  | .chunkOther _ => ⟨0x00000000, 0x00000000⟩

/-- The format a bare table word is read in. The rows of the ten formats share their numbers and a word does not say its
format, so this is the model's choice and no rule of the spec (log 3): by width, 32-bit words are CTRL writes unless they
are one of the two named chunk tags, 9 to 16 bits are literal/length symbols, 8 bits are distance symbols below 32 and
filter types from 32 on. -/
def tableFormat (nbits w : Nat) : Format :=
  if nbits ≤ 8 then (if w < 32 then .distSymbol else .filterType)
  else if nbits ≤ 16 then .litlenSymbol
  else if nbits ≤ 32 then
    (if w = 0x49484452 ∨ w = 0x49444154 then .pngChunkType else .ctrlWrite)
  else .regWrite

/-- The instruction the decoder reads from a table word, in the format `tableFormat` picks (log 3). -/
def decodeTableWord (nbits w : Nat) : Option Instr :=
  (decode (tableFormat nbits w) (BitVec.ofNat 40 w)).toOption

end Sys2Proof
end

