-- ==== Sys2Proof/Machine/State.lean ====
section
/-! DEFINITION. The state of the machine (spec 10_state), the host's side (41_host_container), the reasons a step can stop,
and the state after reset. Plain data only. INVENTORY.md, heading State, lists every field with its rule. -/

namespace Sys2Proof.Machine

/-- `STATE` (R27), the values 0 to 12; 13 to 15 are never taken (93_implementation_defined U10). -/
inductive EngineState where
  | idle | configCheck | zlibHeader | blockHeader | storedBlock | fixedTables | dynamicTables
  | blockBody | trailer | sizeCheck | filter | done | error
deriving DecidableEq, Repr

/-- The error codes 0 to 12 (60_exceptions R146); 13 to 15 are never produced. -/
inductive ErrorCode where
  | noError | badSignature | unsupportedImageFormat | missingHeaderOrData | unsupportedCompressionMethod
  | reservedBlockType | corruptHuffmanStream | unsupportedFilterType | truncatedInput
  | invalidCodeLengths | invalidSymbol | invalidDistance | outputSizeMismatch
deriving DecidableEq, Repr

/-- The point inside an operation: at its boundary, or between two elements of DYNAMIC_TABLES (the code-length symbols,
R108) or of BLOCK_BODY (a length symbol read, its distance symbol not yet, R120). The MODEL's own field (log 1). -/
inductive Phase where
  | boundary | clSymbols | distSymbol
deriving DecidableEq, Repr

/-- The columns of R33's table for one of the three Huffman tables: its entries, `M`, and the widths of its fields. -/
structure TableShape where
  /-- Entries of `len[]` and `sym[]`. -/
  cap       : Nat
  /-- `M`, the longest length the alphabet allows: `count[0..M]`. -/
  longest   : Nat
  /-- Bits of an entry of `len[]`, and of `max`. -/
  lenBits   : Nat
  /-- Bits of an entry of `count[]`, and of `n`. -/
  countBits : Nat
  /-- Bits of an entry of `sym[]`. -/
  symBits   : Nat
deriving DecidableEq, Repr

/-- `LL` (R33): 288 entries, lengths of 4 bits, counts and symbols of 9. -/
def llShape : TableShape := ⟨llCap, maxBits, 4, 9, 9⟩

/-- `DT` (R33): 32 entries, lengths of 4 bits, counts of 6, symbols of 5. -/
def dtShape : TableShape := ⟨distCap, maxBits, 4, 6, 5⟩

/-- `CLT` (R33): 19 entries, lengths of 3 bits, counts and symbols of 5. -/
def cltShape : TableShape := ⟨clCap, clMaxBits, 3, 5, 5⟩

/-- A Huffman table (R33): symbol count, length per symbol, symbols per length, symbols by (length, index), longest length. -/
structure HuffTable (k : TableShape) where
  n     : BitVec k.countBits
  len   : Vector (BitVec k.lenBits) k.cap
  count : Vector (BitVec k.countBits) (k.longest + 1)
  sym   : Vector (BitVec k.symBits) k.cap
  max   : BitVec k.lenBits
deriving DecidableEq, Repr

/-- The bit cursor `CUR_SEG`, `CUR_ADDR`, `CUR_REM`, `CUR_BIT` (R28). -/
structure Cursor where
  seg  : Word
  addr : Word
  rem  : Word
  bit  : BitVec 3
deriving DecidableEq, Repr

/-- The eight configuration registers the host writes (R18 to R21). -/
structure ConfigRegs where
  ihdrWidth  : Word
  ihdrHeight : Word
  ihdrFmt0   : Word
  ihdrFmt1   : Word
  segtabBase : Word
  segCount   : Word
  workBase   : Word
  outBase    : Word
deriving DecidableEq, Repr

/-- OUT_CHANNELS, WORK_SIZE, OUT_SIZE (R22); WORK_SIZE and OUT_SIZE are the latches of R29 too. -/
structure SizeRegs where
  outChannels : BitVec 3
  workSize    : Word
  outSize     : Word
deriving DecidableEq, Repr

/-- The configuration latches `W`, `H`, `BPP`, `STRIDE`, `SEGTAB`, `NSEG`, `WBASE`, `OBASE` (R29). -/
structure Latches where
  w      : Word
  h      : Word
  bpp    : BitVec 3
  stride : Word
  segtab : Word
  nseg   : Word
  wbase  : Word
  obase  : Word
deriving DecidableEq, Repr

/-- The dynamic-header scratch `HLIT`, `HDIST`, `HCLEN`, `LENS[0..319]`, `NL` (R34). -/
structure DynScratch where
  hlit  : BitVec 9
  hdist : BitVec 6
  hclen : BitVec 5
  lens  : List (BitVec 4)
  nl    : BitVec 9
deriving DecidableEq, Repr

/-- Memory: (address, byte) pairs in canonical form (`Memory.wf`); an unlisted address reads `Memory.unlisted` (log 5). -/
structure Memory where
  cells : List Host.Cell
deriving DecidableEq, Repr

/-- One IDAT payload of the host's segment chain (R86). -/
structure Segment where
  addr : Word
  len  : Word
deriving DecidableEq, Repr

/-- The seven fields of a recorded IHDR chunk (R85). -/
structure Ihdr where
  width       : Word
  height      : Word
  bitDepth    : Byte
  colorType   : Byte
  compression : Byte
  filter      : Byte
  interlace   : Byte
deriving DecidableEq, Repr

/-- Where the host puts the segment table, the work buffer and the output buffer, and whether it sets IRQ_EN (R89, R90). -/
structure Placement where
  segtab : Word
  work   : Word
  out    : Word
  irqEn  : Bool
deriving DecidableEq, Repr

/-- A region of memory: first address and size in bytes (R40). -/
structure Region where
  base : Nat
  size : Nat
deriving DecidableEq, Repr

/-- How far the host's decode call has come (R82 to R91). -/
inductive JobPhase where
  | noCall | walking | launched | returned
deriving DecidableEq, Repr

/-- What the decode call returned (R82, R90): nothing yet, the pixel buffer with width, height and channels, the error, or
no result because the block was reset before it finished (log 19). -/
inductive JobResult where
  | pending
  | image (buffer width height channels : Word)
  | failure (e : ErrorCode)
  | abandoned
deriving DecidableEq, Repr

/-- The container parser's own state (R82 to R91): host software, outside the block (R6). -/
structure HostJob where
  phase     : JobPhase
  inputBase : Word
  inputLen  : Nat
  pos       : Nat
  chunkLen  : Word
  ihdr      : Option Ihdr
  segs      : List Segment
  place     : Placement
  /-- The work region the host holds: allocated before the launch, freed when the block has finished (R89, R90). -/
  work      : Option Region
  /-- The output region the host holds: freed on ERROR, the caller's after DONE (R89, R90). -/
  out       : Option Region
  result    : JobResult
deriving DecidableEq, Repr

/-- What the host can do: accesses to the register window by offset (`regRead`, `regWrite`) or by bus address (`busRead`,
`busWrite`), with the access width in bytes (R46); reads and writes of memory (R156); and the decode call (R82) with its
chunk walk (R84) and the wait for its result (R90). -/
inductive HostAction where
  | regRead (width : Nat) (offset : BitVec 8)
  | regWrite (width : Nat) (offset : BitVec 8) (data : Word)
  | busRead (width : Nat) (addr : Nat)
  | busWrite (width : Nat) (addr : Nat) (data : Word)
  | memRead (addr : Word)
  | memWrite (addr : Word) (byte : Byte)
  | openFile (contents : List Byte) (base : Word) (place : Placement)
  | openImage (base : Word) (len : Nat) (place : Placement)
  | walkChunk
  | takeResult
deriving DecidableEq, Repr

/-- A pending host action and the number of engine operations that run before it while the block is BUSY (log 2). -/
structure HostEntry where
  after  : Nat
  action : HostAction
deriving DecidableEq, Repr

/-- The regions of earlier decodes that the host has not got back yet: a START was accepted before it read STATUS with BUSY = 0
(R42 duty 3, log 11). -/
structure LentRegions where
  /-- Work and output buffers. -/
  buffers : List Region
  /-- Segment tables and segments. -/
  input   : List Region
deriving DecidableEq, Repr

/-- The whole machine: the block (10_state), its memory (20_memory) and the host's side. -/
structure State where
  /-- `STATE` (R27). -/
  st         : EngineState
  /-- CTRL.IRQ_EN (R16). -/
  irqEn      : Bool
  /-- The configuration registers (R18 to R21). -/
  cfg        : ConfigRegs
  /-- OUT_CHANNELS, WORK_SIZE, OUT_SIZE (R22). -/
  sizes      : SizeRegs
  /-- `OUT_COUNT` (R30). -/
  outCount   : Word
  /-- `BLOCK_COUNT` (R31). -/
  blockCount : Word
  /-- The bit cursor (R28). -/
  cur        : Cursor
  /-- The configuration latches (R29). -/
  lat        : Latches
  /-- `BFINAL` (R32). -/
  bfinal     : BitVec 1
  /-- `BTYPE` (R32). -/
  btype      : BitVec 2
  /-- `LL` (R33). -/
  ll         : HuffTable llShape
  /-- `DT` (R33). -/
  dt         : HuffTable dtShape
  /-- `CLT` (R33). -/
  clt        : HuffTable cltShape
  /-- The dynamic-header scratch (R34). -/
  dyn        : DynScratch
  /-- `STORED_REM` (R35). -/
  storedRem  : BitVec 16
  /-- `COPY_LEN` (R35). -/
  copyLen    : BitVec 9
  /-- `COPY_DIST` (R35). -/
  copyDist   : BitVec 16
  /-- `ROW` (R35). -/
  row        : Word
  /-- `COL` (R35). -/
  col        : Word
  /-- `FT` (R35). -/
  ft         : Byte
  /-- `ERR_CODE` (R36). -/
  errCode    : ErrorCode
  /-- `ERR_STATE` (R36); IDLE stands for 0. -/
  errState   : EngineState
  /-- The memory of R39. -/
  mem        : Memory
  /-- The point inside an operation (the model's own, log 1). -/
  phase      : Phase
  /-- The number of the next free value (the model's own, log 7). -/
  draws      : Nat
  /-- The word the host's last read returned (the model's own, log 22). -/
  busRdata   : Word
  /-- The host's pending actions, first to act first (the model's own, log 2). -/
  hostQueue  : List HostEntry
  /-- What is the engine's under duty 3 of R42: the four regions of the last decode and these of earlier ones, from the accepted
  START until the host reads STATUS with BUSY = 0 (R51) or resets the block (R156); else `none`. The host's ledger, the model's
  own field (log 11). -/
  loan       : Option LentRegions
  /-- The container parser (R82 to R91). -/
  job        : HostJob
deriving DecidableEq, Repr

/-- Why the machine stops with a fault. -/
inductive Fault where
  /-- An access at an address outside the 2^32 bytes of memory (R39). Raised by every memory access of the engine and of the
  container parser. Safe: the machine stops where the spec says nothing (R42 duty 1, U8). -/
  | addressOutsideMemory (addr : Nat)
deriving DecidableEq, Repr

/-- Why the model gives a step no meaning. -/
inductive Refusal where
  /-- An instruction whose arm of exec has no meaning yet. Raised by exec only. Safe. -/
  | notModelled (mnemonic : String)
  /-- A region does not lie below 2^32 (R42 duty 1, "model: refuse"). Raised by CONFIG_CHECK and by the decode call. Safe. -/
  | regionBeyondMemory
  /-- The work or output buffer overlaps a region (R42 duty 2, "model: refuse"). Raised by CONFIG_CHECK and by the decode call's
  allocation (R89). Safe. -/
  | regionsOverlap
  /-- A host memory access that duty 3 forbids until STATUS has been read with BUSY = 0 (R42 duty 3, "model: refuse"). Raised by
  the host's memory accesses and by the container parser's reads. Safe. -/
  | hostTouchesRegion
  /-- A register access that is no aligned 32-bit word (R46, "model: refuse"). Raised by the host's register accesses. Safe. -/
  | badRegisterAccess
  /-- A bus access outside the register window, which is not the block's (R15). Raised by the host's bus accesses. Safe. -/
  | outsideWindow
  /-- A decoded symbol that names no row; no table set-up can place one (log 25). Raised by step. Safe. -/
  | noSuchElement
deriving DecidableEq, Repr

/-- A table with no symbol, every field 0: the model's reset value of the three tables (log 6). -/
def HuffTable.empty (k : TableShape) : HuffTable k :=
  ⟨0, Vector.replicate _ 0, Vector.replicate _ 0, Vector.replicate _ 0, 0⟩

/-- No region of an earlier decode is lent. -/
def LentRegions.empty : LentRegions := ⟨[], []⟩

/-- No decode call has been made (log 18). -/
def HostJob.initial : HostJob :=
  ⟨.noCall, 0, 0, 0, 0, none, [], ⟨0, 0, 0, false⟩, none, none, .pending⟩

/-- The machine right after reset (R38, R154): every host-visible register 0, STATE IDLE. The latches, tables, scratch and
counters, which the spec leaves unspecified, hold 0 (log 6, DESIGN CHOICE). Memory lists nothing (log 5). -/
def State.reset : State where
  st := .idle
  irqEn := false
  cfg := ⟨0, 0, 0, 0, 0, 0, 0, 0⟩
  sizes := ⟨0, 0, 0⟩
  outCount := 0
  blockCount := 0
  cur := ⟨0, 0, 0, 0⟩
  lat := ⟨0, 0, 0, 0, 0, 0, 0, 0⟩
  bfinal := 0
  btype := 0
  ll := .empty _
  dt := .empty _
  clt := .empty _
  dyn := ⟨0, 0, 0, List.replicate lensCap 0, 0⟩
  storedRem := 0
  copyLen := 0
  copyDist := 0
  row := 0
  col := 0
  ft := 0
  errCode := .noError
  errState := .idle
  mem := ⟨[]⟩
  phase := .boundary
  draws := 0
  busRdata := 0
  hostQueue := []
  loan := none
  job := .initial

end Sys2Proof.Machine
end

