-- ==== Sys2Proof/Machine/Flags.lean ====
section
/-! DEFINITION. The status the block shows: state and error numbers, BUSY, DONE, ERROR, the interrupt line, the STATUS and
CTRL words (10_state R16, R17, R27; 60_exceptions R146, R151; 46_control R144). -/

namespace Sys2Proof.Machine

/-- The encoding of `STATE` (R27). -/
def stateCode : EngineState → BitVec 4
  | .idle => 0
  | .configCheck => 1
  | .zlibHeader => 2
  | .blockHeader => 3
  | .storedBlock => 4
  | .fixedTables => 5
  | .dynamicTables => 6
  | .blockBody => 7
  | .trailer => 8
  | .sizeCheck => 9
  | .filter => 10
  | .done => 11
  | .error => 12

/-- The number of an error (R146). -/
def errorNumber : ErrorCode → BitVec 4
  | .noError => 0
  | .badSignature => 1
  | .unsupportedImageFormat => 2
  | .missingHeaderOrData => 3
  | .unsupportedCompressionMethod => 4
  | .reservedBlockType => 5
  | .corruptHuffmanStream => 6
  | .unsupportedFilterType => 7
  | .truncatedInput => 8
  | .invalidCodeLengths => 9
  | .invalidSymbol => 10
  | .invalidDistance => 11
  | .outputSizeMismatch => 12

/-- The states 1 to 10, in which a decode runs (R27). -/
def busyState : EngineState → Bool
  | .idle | .done | .error => false
  | .configCheck | .zlibHeader | .blockHeader | .storedBlock | .fixedTables | .dynamicTables
  | .blockBody | .trailer | .sizeCheck | .filter => true

/-- STATUS.BUSY (R17). -/
def State.busy (s : State) : Bool := busyState s.st

/-- STATUS.DONE (R17). -/
def State.isDone (s : State) : Bool := s.st == .done

/-- STATUS.ERROR (R17). -/
def State.isError (s : State) : Bool := s.st == .error

/-- The interrupt output: `CTRL.IRQ_EN ∧ (STATUS.DONE ∨ STATUS.ERROR)` (R151). -/
def State.irq (s : State) : Bool := s.irqEn && (s.isDone || s.isError)

/-- The STATUS word: BUSY | DONE<<1 | ERROR<<2 | ERR_CODE<<4 | STATE<<8 | ERR_STATE<<12 | IRQ<<16 (R17, R144). -/
def State.statusWord (s : State) : Word :=
  0#15 ++ BitVec.ofBool s.irq ++ stateCode s.errState ++ stateCode s.st ++ errorNumber s.errCode ++ 0#1
    ++ BitVec.ofBool s.isError ++ BitVec.ofBool s.isDone ++ BitVec.ofBool s.busy

/-- The CTRL word: IRQ_EN in bit 2; START, SOFT_RESET and the reserved bits read 0 (R16). -/
def State.ctrlWord (s : State) : Word := 0#29 ++ BitVec.ofBool s.irqEn ++ 0#2

/-- IHDR_FMT1.IHDR_PRESENT (R20). -/
def ConfigRegs.ihdrPresent (c : ConfigRegs) : Bool := c.ihdrFmt1.getLsbD 8

/-- IHDR_FMT1.INTERLACE (R20). -/
def ConfigRegs.interlace (c : ConfigRegs) : Byte := c.ihdrFmt1.extractLsb' 0 8

/-- IHDR_FMT0.BIT_DEPTH (R19). -/
def ConfigRegs.bitDepth (c : ConfigRegs) : Byte := c.ihdrFmt0.extractLsb' 0 8

/-- IHDR_FMT0.COLOR_TYPE (R19). -/
def ConfigRegs.colorType (c : ConfigRegs) : Byte := c.ihdrFmt0.extractLsb' 8 8

/-- IHDR_FMT0.COMPRESSION (R19). -/
def ConfigRegs.compression (c : ConfigRegs) : Byte := c.ihdrFmt0.extractLsb' 16 8

/-- IHDR_FMT0.FILTER (R19). -/
def ConfigRegs.filter (c : ConfigRegs) : Byte := c.ihdrFmt0.extractLsb' 24 8

/-- The fields of IHDR are in DOC's "restricted subset" (R140): depth 8, colour type 2 or 6, compression, filter and
interlace 0, width and height not 0. -/
def formatSupported (width height : Word) (bitDepth colorType compression filter interlace : Byte) : Bool :=
  bitDepth == 8 && (colorType == 2 || colorType == 6) && compression == 0 && filter == 0 && interlace == 0
    && width != 0 && height != 0

/-- Bytes per pixel: 3 for colour type 2, 4 for colour type 6 (R8, R140). -/
def bytesPerPixel (colorType : Byte) : Nat := if colorType = 2 then 3 else 4

/-- `H × (1 + W × BPP)`, the exact product (R140). -/
def workBytes (width height : Nat) (bpp : Nat) : Nat := height * (1 + width * bpp)

end Sys2Proof.Machine
end

