-- ==== Sys2Proof/Machine/Ops.lean ====
section
/-! DEFINITION. The shared operations over memory and state: memory (20_memory R39 to R45), the result of a running
operation (`Run`), error entry (60_exceptions R147), the reset (70_reset_and_hazards R154), `emit` (44_block_body R117),
the end of a block (R102) and the regions of a decode (R40, R42). -/

namespace Sys2Proof.Machine

/-! ### Memory -/

/-- What an address with no entry reads as: the contents of memory at reset are "the host's" (R38, U5). DESIGN CHOICE,
unsafe (log 5). -/
def Memory.unlisted : Byte := 0

/-- The byte listed at an address, or `Memory.unlisted`. -/
def lookupCell (a : Nat) : List Host.Cell → Byte
  | [] => Memory.unlisted
  | c :: t => if c.1 = a then c.2 else lookupCell a t

/-- The list without the entry of an address. -/
def eraseCell (a : Nat) : List Host.Cell → List Host.Cell
  | [] => []
  | c :: t => if c.1 = a then eraseCell a t else c :: eraseCell a t

/-- The list with an entry put before the first larger address. -/
def insertCell (a : Nat) (b : Byte) : List Host.Cell → List Host.Cell
  | [] => [(a, b)]
  | c :: t => if a < c.1 then (a, b) :: c :: t else c :: insertCell a b t

/-- The canonical form: addresses strictly rising and inside memory, no entry equal to what an unlisted address reads as. -/
abbrev Memory.wf (m : Memory) : Prop :=
  m.cells.Pairwise (fun c d => c.1 < d.1) ∧ ∀ c ∈ m.cells, c.1 < memBytes ∧ c.2 ≠ Memory.unlisted

/-- `MemRead(a, 1)` (R11). -/
def Memory.read (m : Memory) (a : Nat) : Byte := lookupCell a m.cells

/-- `MemWrite(a, 1, b)` (R11), keeping the canonical form. -/
def Memory.write (m : Memory) (a : Nat) (b : Byte) : Memory :=
  if b = Memory.unlisted then ⟨eraseCell a m.cells⟩ else ⟨insertCell a b (eraseCell a m.cells)⟩

/-- `le16` (R10). -/
def le16 (b0 b1 : Byte) : BitVec 16 := b1 ++ b0

/-- `le32` (R10). -/
def le32 (b0 b1 b2 b3 : Byte) : Word := b3 ++ b2 ++ b1 ++ b0

/-- `be32` (R10). -/
def be32 (b0 b1 b2 b3 : Byte) : Word := b0 ++ b1 ++ b2 ++ b3

/-- The four bytes at an address, least significant first. -/
def Memory.readLe32 (m : Memory) (a : Nat) : Word :=
  le32 (m.read a) (m.read (a + 1)) (m.read (a + 2)) (m.read (a + 3))

/-- The four bytes at an address, most significant first. -/
def Memory.readBe32 (m : Memory) (a : Nat) : Word :=
  be32 (m.read a) (m.read (a + 1)) (m.read (a + 2)) (m.read (a + 3))

/-- The region of `n` bytes at `base` filled with the free bytes number `d` on: contents that "are unspecified" (R147, R141;
log 8). -/
def Memory.fillFree (m : Memory) (base d : Nat) : Nat → Memory
  | 0 => m
  | n + 1 =>
    if base + n < memBytes then (m.fillFree base d n).write (base + n) (Config.freeByte (d + n))
    else m.fillFree base d n

/-! ### Running an operation -/

/-- The result of a piece of an operation: a value and the state after it, a `raise` (R11) with the state at the raise, or a
stop of the model. -/
inductive Run (α : Type) where
  | ok (a : α) (s : State)
  | raise (e : ErrorCode) (s : State)
  | fault (f : Fault)
  | refuse (r : Refusal)

/-- Sequencing: nothing after a `raise` runs (R11, R147). -/
def Run.bind {α β : Type} (x : Run α) (k : α → State → Run β) : Run β :=
  match x with
  | .ok a s => k a s
  | .raise e s => .raise e s
  | .fault f => .fault f
  | .refuse r => .refuse r

/-- `MemRead(a, 1)` of the engine at a computed address: an address outside memory does not exist (R39, log 12). -/
def memRead (a : Nat) (s : State) : Run Byte :=
  if a < memBytes then .ok (s.mem.read a) s else .fault (.addressOutsideMemory a)

/-- `MemWrite(a, 1, b)` of the engine at a computed address. -/
def memWrite (a : Nat) (b : Byte) (s : State) : Run Unit :=
  if a < memBytes then .ok () { s with mem := s.mem.write a b } else .fault (.addressOutsideMemory a)

/-- The four bytes from an address on as `le32`. -/
def memReadLe32 (a : Nat) (s : State) : Run Word :=
  if a + 3 < memBytes then .ok (s.mem.readLe32 a) s else .fault (.addressOutsideMemory (max a memBytes))

/-- The four bytes from an address on as `be32`. -/
def memReadBe32 (a : Nat) (s : State) : Run Word :=
  if a + 3 < memBytes then .ok (s.mem.readBe32 a) s else .fault (.addressOutsideMemory (max a memBytes))

/-- `goto S` (R11): the operation ends and `STATE` is `S`. -/
def goto (st : EngineState) (s : State) : State := { s with st := st, phase := .boundary }

/-! ### Error entry and reset -/

/-- Memory in which the contents of the work and output buffers of the running decode are free bytes (R147, R141; log 8). -/
def State.cloudBuffers (s : State) : Memory :=
  (s.mem.fillFree s.lat.wbase.toNat s.draws s.sizes.workSize.toNat).fillFree s.lat.obase.toNat
    (s.draws + s.sizes.workSize.toNat) s.sizes.outSize.toNat

/-- Error entry (R147), the block's one exception. `ERR_CODE` and `ERR_STATE` are set and the engine goes to ERROR. The
work and output buffers, OUT_COUNT, the cursor and BLOCK_COUNT are unspecified afterwards: free values (U1, log 7, log 8).
Everything else keeps its value. There is no return: START and reset are the only ways out (R149). -/
def enterError (e : ErrorCode) (s : State) : State :=
  { s with
    errCode := e
    errState := s.st
    st := .error
    phase := .boundary
    outCount := Config.freeWord s.draws
    cur := ⟨Config.freeWord (s.draws + 1), Config.freeWord (s.draws + 2), Config.freeWord (s.draws + 3),
      (Config.freeWord (s.draws + 4)).setWidth 3⟩
    blockCount := Config.freeWord (s.draws + 5)
    mem := s.cloudBuffers
    draws := s.draws + 6 + s.sizes.workSize.toNat + s.sizes.outSize.toNat }

/-- The end of a step: an operation that ran through answers its state, one that raised enters ERROR (R147). -/
def Run.finish (x : Run Unit) : Host.Outcome State Fault Refusal :=
  match x with
  | .ok _ s => .next s
  | .raise e s => .next (enterError e s)
  | .fault f => .fault f
  | .refuse r => .refused r

/-- The reset of R154 by SOFT_RESET (R141): every piece of the block's state takes its reset value (R38). Memory is not
touched, but a decode in progress is aborted and its buffers' contents are unspecified then: free bytes (U2, log 8). What is
not the block's stays: the host's actions, its decode call and the word its last read returned (log 22). The host may touch
every region again (R156). Three times bytes that R156 has the host treat as unspecified stay as they are (R154): in DONE or ERROR,
also where the host has not read STATUS with BUSY = 0 before; in CONFIG_CHECK, where the sizes are 0; and in the regions of an
earlier decode that the ledger still holds, whatever BUSY is. DESIGN CHOICE, unsafe (log 33). -/
def resetBlock (s : State) : State :=
  { State.reset with
    mem := if s.busy then s.cloudBuffers else s.mem
    draws := if s.busy then s.draws + s.sizes.workSize.toNat + s.sizes.outSize.toNat else s.draws
    busRdata := s.busRdata
    hostQueue := s.hostQueue
    job := s.job }

/-! ### Inflate output and end of block -/

/-- `emit(b)` (R117): one byte appended to the inflate output; past `WORK_SIZE` nothing is written and the decode fails. -/
def emit (b : Byte) (s : State) : Run Unit :=
  if s.outCount = s.sizes.workSize then .raise .outputSizeMismatch s
  else (memWrite (s.lat.wbase.toNat + s.outCount.toNat) b s).bind fun _ s =>
    .ok () { s with outCount := s.outCount + 1 }

/-- `blk_end()` (R102). -/
def blockEnd (s : State) : State := goto (if s.bfinal = 1 then .trailer else .blockHeader) s

/-! ### The regions of a decode -/

/-- Duty 1 of R42 for one region: `base + size ≤ 2^32`. -/
def Region.fits (r : Region) : Bool := decide (r.base + r.size ≤ memBytes)

/-- The address lies in the region. -/
def Region.holds (r : Region) (a : Nat) : Bool := decide (r.base ≤ a) && decide (a < r.base + r.size)

/-- Two regions share an address. -/
def Region.overlaps (r q : Region) : Bool :=
  decide (0 < r.size) && decide (0 < q.size) && decide (r.base < q.base + q.size) && decide (q.base < r.base + r.size)

/-- The segment table of `n` descriptors at `base` (R40, R41). -/
def tableRegion (base n : Nat) : Region := ⟨base, 8 * n⟩

/-- The input segment of descriptor `i` (R41). -/
def segmentRegion (m : Memory) (base i : Nat) : Region :=
  ⟨(m.readLe32 (base + 8 * i)).toNat, (m.readLe32 (base + 8 * i + 4)).toNat⟩

/-- A test holds of the segments of the first `n` descriptors. -/
def allSegments (m : Memory) (base : Nat) (p : Region → Bool) : Nat → Bool
  | 0 => true
  | n + 1 => allSegments m base p n && p (segmentRegion m base n)

/-- The work buffer (R40). -/
def workRegion (s : State) : Region := ⟨s.lat.wbase.toNat, s.sizes.workSize.toNat⟩

/-- The output buffer (R40). -/
def outRegion (s : State) : Region := ⟨s.lat.obase.toNat, s.sizes.outSize.toNat⟩

/-- Duty 1 of R42: every region of the decode lies wholly below 2^32. -/
def regionsFit (s : State) : Bool :=
  (tableRegion s.lat.segtab.toNat s.lat.nseg.toNat).fits && (workRegion s).fits && (outRegion s).fits
    && allSegments s.mem s.lat.segtab.toNat Region.fits s.lat.nseg.toNat

/-- Neither buffer overlaps the region. -/
def clearOf (work out r : Region) : Bool := !work.overlaps r && !out.overlaps r

/-- Duty 2 of R42: the work and output buffers overlap neither each other nor the table nor a segment. -/
def buffersDisjoint (s : State) : Bool :=
  !(workRegion s).overlaps (outRegion s)
    && clearOf (workRegion s) (outRegion s) (tableRegion s.lat.segtab.toNat s.lat.nseg.toNat)
    && allSegments s.mem s.lat.segtab.toNat (clearOf (workRegion s) (outRegion s)) s.lat.nseg.toNat

/-! ### The host's queue -/

/-- The host's next action is done and leaves the queue. -/
def popHost (s : State) : State := { s with hostQueue := s.hostQueue.tail }

/-- One engine operation has run since the last host action (log 2). -/
def tickHost (s : State) : State :=
  match s.hostQueue with
  | [] => s
  | e :: rest => { s with hostQueue := { e with after := e.after - 1 } :: rest }

end Sys2Proof.Machine
end

