-- ==== Sys2Proof/Machine/Operands.lean ====
section
/-! DEFINITION. Reading operands from the stream: the bit reader (40_bit_reader R74 to R80), the Huffman table unit
(42_huffman R92, R93) and the operand constants (30_encoding R60, R69). -/

namespace Sys2Proof.Machine

/-! ### Bit reader -/

/-- The cursor placed on the first bit of segment `i`'s descriptor `d = MemRead(SEGTAB + 8*i, 8)` (R41); `CUR_BIT` stays. -/
def loadSegment (i : Nat) (s : State) : Run Unit :=
  (memReadLe32 (s.lat.segtab.toNat + 8 * i) s).bind fun addr s =>
  (memReadLe32 (s.lat.segtab.toNat + 8 * i + 4) s).bind fun len s =>
  .ok () { s with cur := { s.cur with seg := BitVec.ofNat 32 i, addr := addr, rem := len } }

/-- `cursor_init()` (R74). -/
def cursorInit (s : State) : Run Unit :=
  (loadSegment 0 s).bind fun _ s => .ok () { s with cur := { s.cur with bit := 0 } }

/-- The loop of `ensure_byte()` (R75) with a bound on its turns; `ensureByte` gives it one turn more than there can be. -/
def ensureByteIn : Nat → State → Run Unit
  | 0, s => .raise .truncatedInput s
  | n + 1, s =>
    if s.cur.rem ≠ 0 then .ok () s
    else if s.lat.nseg.toNat ≤ s.cur.seg.toNat + 1 then .raise .truncatedInput s
    else (loadSegment (s.cur.seg.toNat + 1) s).bind fun _ s => ensureByteIn n s

/-- `ensure_byte()` (R75): the cursor on a readable byte, past exhausted and empty segments, or `TruncatedInput`. -/
def ensureByte (s : State) : Run Unit := ensureByteIn (s.lat.nseg.toNat - s.cur.seg.toNat + 1) s

/-- The cursor on the next byte of the segment (R76, R78, R79). At the top of memory the 32-bit address wraps (log 9). -/
def Cursor.nextByte (c : Cursor) : Cursor := { c with addr := c.addr + 1, rem := c.rem - 1, bit := 0 }

/-- The cursor after one bit; after the eighth it stands on the next byte (R76). -/
def Cursor.nextBit (c : Cursor) : Cursor := if c.bit = 7 then c.nextByte else { c with bit := c.bit + 1 }

/-- `fetch_bit()` (R76): one bit, from bit 0 up to bit 7 of the byte at the cursor. -/
def fetchBit (s : State) : Run Bool :=
  (ensureByte s).bind fun _ s =>
  .ok ((s.mem.read s.cur.addr.toNat).getLsbD s.cur.bit.toNat) { s with cur := s.cur.nextBit }

/-- `read_bits(n)` (R77): the first bit consumed is bit 0 of the result. -/
def readBits : Nat → State → Run Nat
  | 0, s => .ok 0 s
  | n + 1, s =>
    (fetchBit s).bind fun b s =>
    (readBits n s).bind fun v s => .ok (b.toNat + 2 * v) s

/-- The three bits of a block header (R101): BFINAL is written before BTYPE is read. -/
def readBlockHeader (s : State) : Run Nat :=
  (readBits 1 s).bind fun f s =>
  (readBits 2 { s with bfinal := BitVec.ofNat 1 f }).bind fun t s => .ok (f + 2 * t) s

/-- `align_to_byte()` (R78). -/
def alignToByte (s : State) : State :=
  if s.cur.bit = 0 then s else { s with cur := s.cur.nextByte }

/-- `read_byte()` (R79), with `CUR_BIT` = 0 at every call. -/
def readByte (s : State) : Run Byte :=
  (ensureByte s).bind fun _ s =>
  .ok (s.mem.read s.cur.addr.toNat)
    { s with cur := { s.cur with addr := s.cur.addr + 1, rem := s.cur.rem - 1 } }

/-- `read_bytes(n)` (R80): n raw bytes in stream order. -/
def readBytes : Nat → State → Run (List Byte)
  | 0, s => .ok [] s
  | n + 1, s =>
    (readByte s).bind fun b s =>
    (readBytes n s).bind fun bs s => .ok (b :: bs) s

/-! ### Huffman tables -/

/-- `count[l]` of R92: the symbols of length `l`; absent symbols are not counted (90_conflicts C3). -/
def lengthCount (lens : List Nat) (l : Nat) : Nat := if l = 0 then 0 else lens.count l

/-- The symbols of length `l` among `lens`, numbered from `i` on, in index order. -/
def symbolsOfLength (l : Nat) : List Nat → Nat → List Nat
  | [], _ => []
  | x :: t, i => if x = l then i :: symbolsOfLength l t (i + 1) else symbolsOfLength l t (i + 1)

/-- The present symbols of lengths 1 to `m`, "sorted by (length, original index)" (R92). -/
def sortedSymbols (lens : List Nat) : Nat → List Nat
  | 0 => []
  | m + 1 => sortedSymbols lens m ++ symbolsOfLength (m + 1) lens 0

/-- The longest length present, 0 if none (R92, D12). -/
def longestLength (lens : List Nat) : Nat := lens.foldl max 0

/-- An array given entry by entry. -/
def tableArray {α : Type} (n : Nat) (f : Nat → α) : Vector α n := ⟨((List.range n).map f).toArray, by simp⟩

/-- `build(T, L)` (R92). It never fails (R95). The entries of `sym[]` after the placed symbols are unspecified (R33), and so are
those of `len[]` from `n` on, which no rule writes: free values, number `d` on (log 29). -/
def build (k : TableShape) (lens : List Nat) (d : Nat) : HuffTable k :=
  let placed := sortedSymbols lens k.longest
  { n := BitVec.ofNat _ lens.length
    len := tableArray _ fun s =>
      if s < lens.length then BitVec.ofNat _ (lens.getD s 0) else (Config.freeWord (d + s)).setWidth _
    count := tableArray _ fun l => BitVec.ofNat _ (lengthCount lens l)
    sym := tableArray _ fun i =>
      if i < placed.length then BitVec.ofNat _ (placed.getD i 0) else (Config.freeWord (d + k.cap + i)).setWidth _
    max := BitVec.ofNat _ (longestLength lens) }

/-- The number of free values that `build` names. -/
def TableShape.draws (k : TableShape) : Nat := 2 * k.cap

/-- `T.count[l]`. -/
def HuffTable.countAt {k : TableShape} (t : HuffTable k) (l : Nat) : Nat := (t.count.toList.getD l 0).toNat

/-- `T.sym[i]`. "`base + offset` always indexes a placed symbol" of a built table (R93); past the array a free value (log 23). -/
def HuffTable.symAt {k : TableShape} (t : HuffTable k) (i : Nat) : Nat :=
  (t.sym.toList.getD i ((Config.freeSymbol i).setWidth _)).toNat

/-- The loop of `decode(T)` (R93) with `j` lengths left, at length `l`. -/
def huffDecodeFrom {k : TableShape} (t : HuffTable k) : Nat → Nat → Nat → Nat → Nat → State → Run Nat
  | 0, _, _, _, _, s => .raise .corruptHuffmanStream s
  | j + 1, l, code, first, base, s =>
    (fetchBit s).bind fun b s =>
    let first := (first + t.countAt (l - 1)) * 2
    let code := code + b.toNat
    let cnt := t.countAt l
    if first ≤ code ∧ code - first < cnt then .ok (t.symAt (base + (code - first))) s
    else huffDecodeFrom t j (l + 1) (code * 2) first (base + cnt) s

/-- `decode(T)` (R93): one symbol, most significant code bit first. -/
def huffDecode {k : TableShape} (t : HuffTable k) (s : State) : Run Nat := huffDecodeFrom t t.max.toNat 1 0 0 0 s

/-! ### Operand constants -/

/-- `PERM` (R60): the order of the code-length-code lengths. -/
def clOrder : List Nat := [16, 17, 18, 0, 8, 7, 9, 6, 10, 5, 11, 4, 12, 3, 13, 2, 14, 1, 15]

/-- The fixed literal/length code lengths (R69, R105). -/
def fixedLitlenLengths : List Nat :=
  List.replicate 144 8 ++ List.replicate 112 9 ++ List.replicate 24 7 ++ List.replicate 8 8

/-- The fixed distance code lengths (R69, R105). -/
def fixedDistLengths : List Nat := List.replicate 32 5

end Sys2Proof.Machine
end

