-- ==== Sys2Proof/Machine/Body.lean ====
section
/-! DEFINITION. The meanings of the block body's elements (44_block_body R117 to R125): literals, end of block, length
symbols, distance symbols. A match is two elements of one operation: the length symbol leaves the machine in the phase
`distSymbol`, and the distance symbol that follows copies (log 1). -/

namespace Sys2Proof.Machine

/-- LIT (R118). -/
def execLit (byte : BitVec 8) (s : State) : Host.Outcome State Fault Refusal := (emit byte s).finish

/-- EOB (R119). -/
def execEob (s : State) : Host.Outcome State Fault Refusal := .next (blockEnd s)

/-- A length symbol (R120): `COPY_LEN <- LBASE + read_bits(LEXT)`; the distance symbol is the next element. -/
def lengthSymbol (base ext : Nat) (s : State) : Host.Outcome State Fault Refusal :=
  ((readBits ext s).bind fun e s =>
    .ok () { s with copyLen := BitVec.ofNat 9 (base + e), phase := .distSymbol }).finish

/-- `copy()` (R122): the forward byte loop, `n` bytes left. -/
def copyMatch : Nat → State → Run Unit
  | 0, s => .ok () s
  | n + 1, s =>
    (memRead (s.lat.wbase.toNat + s.outCount.toNat - s.copyDist.toNat) s).bind fun b s =>
    (emit b s).bind fun _ s => copyMatch n s

/-- A distance symbol (R120): `COPY_DIST <- DBASE + read_bits(DEXT)`, the bound of R121, then the copy of R122. -/
def distanceSymbol (base ext : Nat) (s : State) : Host.Outcome State Fault Refusal :=
  ((readBits ext s).bind fun e s =>
    let s := { s with copyDist := BitVec.ofNat 16 (base + e) }
    if s.outCount.toNat < s.copyDist.toNat then .raise .invalidDistance s
    else (copyMatch s.copyLen.toNat s).bind fun _ s => .ok () { s with phase := .boundary }).finish

/-- LL_INVALID_286_287 (R124): nothing is written. -/
def execLlInvalid286To287 (_low : BitVec 1) (s : State) : Host.Outcome State Fault Refusal :=
  (Run.raise (α := Unit) .invalidSymbol s).finish

/-- DIST_INVALID_30_31 (R125): no distance extra bit is read, nothing is written. -/
def execDistInvalid30To31 (_low : BitVec 1) (s : State) : Host.Outcome State Fault Refusal :=
  (Run.raise (α := Unit) .invalidSymbol s).finish

/-! ### The length symbols, with `LBASE` and `LEXT` of R67 -/

/-- LEN_257: length 3 (R67, R120). -/
def execLen257 (s : State) : Host.Outcome State Fault Refusal := lengthSymbol 3 0 s

/-- LEN_258: length 4 (R67, R120). -/
def execLen258 (s : State) : Host.Outcome State Fault Refusal := lengthSymbol 4 0 s

/-- LEN_259: length 5 (R67, R120). -/
def execLen259 (s : State) : Host.Outcome State Fault Refusal := lengthSymbol 5 0 s

/-- LEN_260: length 6 (R67, R120). -/
def execLen260 (s : State) : Host.Outcome State Fault Refusal := lengthSymbol 6 0 s

/-- LEN_261: length 7 (R67, R120). -/
def execLen261 (s : State) : Host.Outcome State Fault Refusal := lengthSymbol 7 0 s

/-- LEN_262: length 8 (R67, R120). -/
def execLen262 (s : State) : Host.Outcome State Fault Refusal := lengthSymbol 8 0 s

/-- LEN_263: length 9 (R67, R120). -/
def execLen263 (s : State) : Host.Outcome State Fault Refusal := lengthSymbol 9 0 s

/-- LEN_264: length 10 (R67, R120). -/
def execLen264 (s : State) : Host.Outcome State Fault Refusal := lengthSymbol 10 0 s

/-- LEN_265: length 11 to 12 (R67, R120). -/
def execLen265 (s : State) : Host.Outcome State Fault Refusal := lengthSymbol 11 1 s

/-- LEN_266: length 13 to 14 (R67, R120). -/
def execLen266 (s : State) : Host.Outcome State Fault Refusal := lengthSymbol 13 1 s

/-- LEN_267: length 15 to 16 (R67, R120). -/
def execLen267 (s : State) : Host.Outcome State Fault Refusal := lengthSymbol 15 1 s

/-- LEN_268: length 17 to 18 (R67, R120). -/
def execLen268 (s : State) : Host.Outcome State Fault Refusal := lengthSymbol 17 1 s

/-- LEN_269: length 19 to 22 (R67, R120). -/
def execLen269 (s : State) : Host.Outcome State Fault Refusal := lengthSymbol 19 2 s

/-- LEN_270: length 23 to 26 (R67, R120). -/
def execLen270 (s : State) : Host.Outcome State Fault Refusal := lengthSymbol 23 2 s

/-- LEN_271: length 27 to 30 (R67, R120). -/
def execLen271 (s : State) : Host.Outcome State Fault Refusal := lengthSymbol 27 2 s

/-- LEN_272: length 31 to 34 (R67, R120). -/
def execLen272 (s : State) : Host.Outcome State Fault Refusal := lengthSymbol 31 2 s

/-- LEN_273: length 35 to 42 (R67, R120). -/
def execLen273 (s : State) : Host.Outcome State Fault Refusal := lengthSymbol 35 3 s

/-- LEN_274: length 43 to 50 (R67, R120). -/
def execLen274 (s : State) : Host.Outcome State Fault Refusal := lengthSymbol 43 3 s

/-- LEN_275: length 51 to 58 (R67, R120). -/
def execLen275 (s : State) : Host.Outcome State Fault Refusal := lengthSymbol 51 3 s

/-- LEN_276: length 59 to 66 (R67, R120). -/
def execLen276 (s : State) : Host.Outcome State Fault Refusal := lengthSymbol 59 3 s

/-- LEN_277: length 67 to 82 (R67, R120). -/
def execLen277 (s : State) : Host.Outcome State Fault Refusal := lengthSymbol 67 4 s

/-- LEN_278: length 83 to 98 (R67, R120). -/
def execLen278 (s : State) : Host.Outcome State Fault Refusal := lengthSymbol 83 4 s

/-- LEN_279: length 99 to 114 (R67, R120). -/
def execLen279 (s : State) : Host.Outcome State Fault Refusal := lengthSymbol 99 4 s

/-- LEN_280: length 115 to 130 (R67, R120). -/
def execLen280 (s : State) : Host.Outcome State Fault Refusal := lengthSymbol 115 4 s

/-- LEN_281: length 131 to 162 (R67, R120). -/
def execLen281 (s : State) : Host.Outcome State Fault Refusal := lengthSymbol 131 5 s

/-- LEN_282: length 163 to 194 (R67, R120). -/
def execLen282 (s : State) : Host.Outcome State Fault Refusal := lengthSymbol 163 5 s

/-- LEN_283: length 195 to 226 (R67, R120). -/
def execLen283 (s : State) : Host.Outcome State Fault Refusal := lengthSymbol 195 5 s

/-- LEN_284: length 227 to 258 (R67, R120). -/
def execLen284 (s : State) : Host.Outcome State Fault Refusal := lengthSymbol 227 5 s

/-- LEN_285: length 258 (R67, R120). -/
def execLen285 (s : State) : Host.Outcome State Fault Refusal := lengthSymbol 258 0 s

/-! ### The distance symbols, with `DBASE` and `DEXT` of R68 -/

/-- DIST_0: distance 1 (R68, R120). -/
def execDist0 (s : State) : Host.Outcome State Fault Refusal := distanceSymbol 1 0 s

/-- DIST_1: distance 2 (R68, R120). -/
def execDist1 (s : State) : Host.Outcome State Fault Refusal := distanceSymbol 2 0 s

/-- DIST_2: distance 3 (R68, R120). -/
def execDist2 (s : State) : Host.Outcome State Fault Refusal := distanceSymbol 3 0 s

/-- DIST_3: distance 4 (R68, R120). -/
def execDist3 (s : State) : Host.Outcome State Fault Refusal := distanceSymbol 4 0 s

/-- DIST_4: distance 5 to 6 (R68, R120). -/
def execDist4 (s : State) : Host.Outcome State Fault Refusal := distanceSymbol 5 1 s

/-- DIST_5: distance 7 to 8 (R68, R120). -/
def execDist5 (s : State) : Host.Outcome State Fault Refusal := distanceSymbol 7 1 s

/-- DIST_6: distance 9 to 12 (R68, R120). -/
def execDist6 (s : State) : Host.Outcome State Fault Refusal := distanceSymbol 9 2 s

/-- DIST_7: distance 13 to 16 (R68, R120). -/
def execDist7 (s : State) : Host.Outcome State Fault Refusal := distanceSymbol 13 2 s

/-- DIST_8: distance 17 to 24 (R68, R120). -/
def execDist8 (s : State) : Host.Outcome State Fault Refusal := distanceSymbol 17 3 s

/-- DIST_9: distance 25 to 32 (R68, R120). -/
def execDist9 (s : State) : Host.Outcome State Fault Refusal := distanceSymbol 25 3 s

/-- DIST_10: distance 33 to 48 (R68, R120). -/
def execDist10 (s : State) : Host.Outcome State Fault Refusal := distanceSymbol 33 4 s

/-- DIST_11: distance 49 to 64 (R68, R120). -/
def execDist11 (s : State) : Host.Outcome State Fault Refusal := distanceSymbol 49 4 s

/-- DIST_12: distance 65 to 96 (R68, R120). -/
def execDist12 (s : State) : Host.Outcome State Fault Refusal := distanceSymbol 65 5 s

/-- DIST_13: distance 97 to 128 (R68, R120). -/
def execDist13 (s : State) : Host.Outcome State Fault Refusal := distanceSymbol 97 5 s

/-- DIST_14: distance 129 to 192 (R68, R120). -/
def execDist14 (s : State) : Host.Outcome State Fault Refusal := distanceSymbol 129 6 s

/-- DIST_15: distance 193 to 256 (R68, R120). -/
def execDist15 (s : State) : Host.Outcome State Fault Refusal := distanceSymbol 193 6 s

/-- DIST_16: distance 257 to 384 (R68, R120). -/
def execDist16 (s : State) : Host.Outcome State Fault Refusal := distanceSymbol 257 7 s

/-- DIST_17: distance 385 to 512 (R68, R120). -/
def execDist17 (s : State) : Host.Outcome State Fault Refusal := distanceSymbol 385 7 s

/-- DIST_18: distance 513 to 768 (R68, R120). -/
def execDist18 (s : State) : Host.Outcome State Fault Refusal := distanceSymbol 513 8 s

/-- DIST_19: distance 769 to 1024 (R68, R120). -/
def execDist19 (s : State) : Host.Outcome State Fault Refusal := distanceSymbol 769 8 s

/-- DIST_20: distance 1025 to 1536 (R68, R120). -/
def execDist20 (s : State) : Host.Outcome State Fault Refusal := distanceSymbol 1025 9 s

/-- DIST_21: distance 1537 to 2048 (R68, R120). -/
def execDist21 (s : State) : Host.Outcome State Fault Refusal := distanceSymbol 1537 9 s

/-- DIST_22: distance 2049 to 3072 (R68, R120). -/
def execDist22 (s : State) : Host.Outcome State Fault Refusal := distanceSymbol 2049 10 s

/-- DIST_23: distance 3073 to 4096 (R68, R120). -/
def execDist23 (s : State) : Host.Outcome State Fault Refusal := distanceSymbol 3073 10 s

/-- DIST_24: distance 4097 to 6144 (R68, R120). -/
def execDist24 (s : State) : Host.Outcome State Fault Refusal := distanceSymbol 4097 11 s

/-- DIST_25: distance 6145 to 8192 (R68, R120). -/
def execDist25 (s : State) : Host.Outcome State Fault Refusal := distanceSymbol 6145 11 s

/-- DIST_26: distance 8193 to 12288 (R68, R120). -/
def execDist26 (s : State) : Host.Outcome State Fault Refusal := distanceSymbol 8193 12 s

/-- DIST_27: distance 12289 to 16384 (R68, R120). -/
def execDist27 (s : State) : Host.Outcome State Fault Refusal := distanceSymbol 12289 12 s

/-- DIST_28: distance 16385 to 24576 (R68, R120). -/
def execDist28 (s : State) : Host.Outcome State Fault Refusal := distanceSymbol 16385 13 s

/-- DIST_29: distance 24577 to 32768 (R68, R120). -/
def execDist29 (s : State) : Host.Outcome State Fault Refusal := distanceSymbol 24577 13 s

end Sys2Proof.Machine
end

