-- ==== Sys2Proof/Machine/Control.lean ====
section
/-! DEFINITION. The meanings of the host's register commands (46_control R138 to R145) and the host accesses that no row
names: reads of the other registers (10_state R15, R22 to R24, R26) and accesses to memory (20_memory R42, R51). -/

namespace Sys2Proof.Machine

/-! ### The regions that are the engine's (R42 duty 3) -/

/-- The work and output buffers of the decode (R40). In CONFIG_CHECK the sizes are not set yet: the extents are then those the
formulas of R140 give for the registers, with 4 bytes per pixel for every colour type but 2, even where the check will fail and
no sizes are ever set. DESIGN CHOICE, safe (log 11). -/
def lentBuffers (s : State) : List Region :=
  if s.st = .configCheck then
    let w := s.cfg.ihdrWidth.toNat
    let h := s.cfg.ihdrHeight.toNat
    let bpp := bytesPerPixel s.cfg.colorType
    [⟨s.cfg.workBase.toNat, workBytes w h bpp⟩, ⟨s.cfg.outBase.toNat, h * (w * bpp)⟩]
  else [workRegion s, outRegion s]

/-- The segment table of the decode: base and number of descriptors (R40). CONFIG_CHECK is about to latch the registers. -/
def lentTable (s : State) : Nat × Nat :=
  if s.st = .configCheck then (s.cfg.segtabBase.toNat, s.cfg.segCount.toNat) else (s.lat.segtab.toNat, s.lat.nseg.toNat)

/-- The regions of the decode that the engine only reads: the segment table and the segments (R40). -/
def lentInput (s : State) : List Region :=
  tableRegion (lentTable s).1 (lentTable s).2
    :: (List.range (lentTable s).2).map (segmentRegion s.mem (lentTable s).1)

/-- The regions of a ledger, with those of the last decode put before them. -/
def withLent (s : State) (e : LentRegions) : LentRegions := ⟨lentBuffers s ++ e.buffers, lentInput s ++ e.input⟩

/-! ### CTRL writes -/

/-- SOFT_RESET (R141): the reset at once, in any state; the rest of the write is ignored (R138). -/
def execSoftReset (_start _irqEn : BitVec 1) (_reserved : BitVec 29) (s : State) :
    Host.Outcome State Fault Refusal :=
  .next (resetBlock s)

/-- The accepted START command (R139). From here on the four regions are the engine's (R42 duty 3). Where the host has not read
STATUS with BUSY = 0 since the decode before, the regions of that decode stay the engine's beside them. DESIGN CHOICE, safe: the
spec does not say whose regions count then (log 11). -/
def acceptStart (s : State) : State :=
  goto .configCheck
    { s with
      errCode := .noError
      errState := .idle
      sizes := ⟨0, 0, 0⟩
      outCount := 0
      blockCount := 0
      loan := some ((s.loan.map (withLent s)).getD .empty) }

/-- START (R138, R139): IRQ_EN is written, then the decode starts; while BUSY = 1 the start is ignored. -/
def execStart (irqEn : BitVec 1) (_reserved : BitVec 29) (s : State) : Host.Outcome State Fault Refusal :=
  let s := { s with irqEn := irqEn == 1 }
  .next (if s.busy then s else acceptStart s)

/-- SET_IRQ_EN (R142). -/
def execSetIrqEn (irqEn : BitVec 1) (_reserved : BitVec 29) (s : State) : Host.Outcome State Fault Refusal :=
  .next { s with irqEn := irqEn == 1 }

/-! ### Register reads -/

/-- The host reads STATUS (R144): no side effect on the block. A read with BUSY = 0 is the completion of R51: the host may touch
all lent regions again (R42 duty 3, log 11). -/
def hostReadStatus (s : State) : State :=
  { s with busRdata := s.statusWord, loan := if s.busy then s.loan else none }

/-- READ_STATUS (R144). -/
def execReadStatus (s : State) : Host.Outcome State Fault Refusal := .next (hostReadStatus s)

/-- The progress registers read as unspecified values: while BUSY = 1 and after ERROR (R24, U1, U3). -/
def State.progressUnspecified (s : State) : Bool := s.busy || s.isError

/-- A progress register as the host reads it (R24): its value, or a fresh free value (log 32). -/
def progressRead (v : Word) (s : State) : State :=
  if s.progressUnspecified then { s with busRdata := Config.freeWord s.draws, draws := s.draws + 1 }
  else { s with busRdata := v }

/-- A host read of a register that has no row in the opcode table (R15, R18 to R26); STATUS is READ_STATUS. -/
def hostReadRegister (offset : BitVec 8) (s : State) : State :=
  match offset.toNat with
  | 0x00 => { s with busRdata := s.ctrlWord }
  | 0x04 => hostReadStatus s
  | 0x08 => { s with busRdata := s.cfg.ihdrWidth }
  | 0x0C => { s with busRdata := s.cfg.ihdrHeight }
  | 0x10 => { s with busRdata := s.cfg.ihdrFmt0 }
  | 0x14 => { s with busRdata := s.cfg.ihdrFmt1 }
  | 0x18 => { s with busRdata := s.cfg.segtabBase }
  | 0x1C => { s with busRdata := s.cfg.segCount }
  | 0x20 => { s with busRdata := s.cfg.workBase }
  | 0x24 => { s with busRdata := s.cfg.outBase }
  | 0x28 => { s with busRdata := s.sizes.outChannels.setWidth 32 }
  | 0x2C => { s with busRdata := s.sizes.workSize }
  | 0x30 => { s with busRdata := s.sizes.outSize }
  | 0x34 => progressRead s.outCount s
  | 0x38 => progressRead s.cur.seg s
  | 0x3C => progressRead s.cur.addr s
  | 0x40 => progressRead s.cur.rem s
  | 0x44 => progressRead (s.cur.bit.setWidth 32) s
  | 0x48 => progressRead s.blockCount s
  | _ => { s with busRdata := 0 }

/-! ### Configuration register writes -/

/-- A write to a configuration register: stored when BUSY = 0, ignored when BUSY = 1 (R25, R145). -/
def writeConfig (c : ConfigRegs) (s : State) : State := if s.busy then s else { s with cfg := c }

/-- WRITE_IHDR_WIDTH (R145, R18). -/
def execWriteIhdrWidth (data : Word) (s : State) : Host.Outcome State Fault Refusal :=
  .next (writeConfig { s.cfg with ihdrWidth := data } s)

/-- WRITE_IHDR_HEIGHT (R145, R18). -/
def execWriteIhdrHeight (data : Word) (s : State) : Host.Outcome State Fault Refusal :=
  .next (writeConfig { s.cfg with ihdrHeight := data } s)

/-- WRITE_IHDR_FMT0 (R145, R19). -/
def execWriteIhdrFmt0 (data : Word) (s : State) : Host.Outcome State Fault Refusal :=
  .next (writeConfig { s.cfg with ihdrFmt0 := data } s)

/-- WRITE_IHDR_FMT1 (R145, R20): bits 31:9 are reserved, their writes ignored. -/
def execWriteIhdrFmt1 (data : Word) (s : State) : Host.Outcome State Fault Refusal :=
  .next (writeConfig { s.cfg with ihdrFmt1 := data &&& 0x1FF#32 } s)

/-- WRITE_SEGTAB_BASE (R145, R21). -/
def execWriteSegtabBase (data : Word) (s : State) : Host.Outcome State Fault Refusal :=
  .next (writeConfig { s.cfg with segtabBase := data } s)

/-- WRITE_SEG_COUNT (R145, R21). -/
def execWriteSegCount (data : Word) (s : State) : Host.Outcome State Fault Refusal :=
  .next (writeConfig { s.cfg with segCount := data } s)

/-- WRITE_WORK_BASE (R145, R21). -/
def execWriteWorkBase (data : Word) (s : State) : Host.Outcome State Fault Refusal :=
  .next (writeConfig { s.cfg with workBase := data } s)

/-- WRITE_OUT_BASE (R145, R21). -/
def execWriteOutBase (data : Word) (s : State) : Host.Outcome State Fault Refusal :=
  .next (writeConfig { s.cfg with outBase := data } s)

/-! ### Host accesses to memory -/

/-- Duty 3 of R42 lets the host read the region: it meets no buffer that is the engine's (log 11). -/
def mayRead (s : State) (r : Region) : Bool :=
  match s.loan with
  | none => true
  | some e => !(withLent s e).buffers.any r.overlaps

/-- Duty 3 of R42 lets the host write the region: it meets no buffer and no input that is the engine's (log 11). -/
def mayWrite (s : State) (r : Region) : Bool :=
  match s.loan with
  | none => true
  | some e => !((withLent s e).buffers.any r.overlaps || (withLent s e).input.any r.overlaps)

/-- A host read of a byte of memory (R42 duty 3, R51). -/
def hostMemRead (addr : Word) (s : State) : Host.Outcome State Fault Refusal :=
  if mayRead s ⟨addr.toNat, 1⟩ then .next { s with busRdata := (s.mem.read addr.toNat).setWidth 32 }
  else .refused .hostTouchesRegion

/-- A host write of a byte of memory (R42 duty 3, R51). -/
def hostMemWrite (addr : Word) (byte : Byte) (s : State) : Host.Outcome State Fault Refusal :=
  if mayWrite s ⟨addr.toNat, 1⟩ then .next { s with mem := s.mem.write addr.toNat byte }
  else .refused .hostTouchesRegion

end Sys2Proof.Machine
end

