-- ==== Sys2Proof/Machine/Container.lean ====
section
/-! DEFINITION. The host's container parser (41_host_container R82 to R91): the decode call, the chunk walk, the meanings of
the chunk-type rows, the end of the walk, the launch and the result. It is host software outside the block (R6); its
state is State.job. -/

namespace Sys2Proof.Machine

/-- The decode call fails: no buffer is returned (R82, R91). -/
def jobFail (e : ErrorCode) (s : State) : State :=
  { s with job := { s.job with phase := .returned, result := .failure e } }

/-- The PNG signature (R83). -/
def pngSignature : List Byte := [0x89, 0x50, 0x4E, 0x47, 0x0D, 0x0A, 0x1A, 0x0A]

/-- The input begins with the signature (R83). -/
def signatureMatches (m : Memory) (base : Nat) : Bool :=
  (List.range 8).map (fun i => m.read (base + i)) == pngSignature

/-- The parser's reads of `n` bytes at an address are the host's: duty 3 of R42 holds for them (log 11). -/
def hostReading {α : Type} (a n : Nat) (s : State) (x : Run α) : Run α :=
  if mayRead s ⟨a, n⟩ then x else .refuse .hostTouchesRegion

/-- The decode call with an in-memory buffer (R82): the signature check (R83), then the walk from offset 8 (R84). -/
def openImage (base : Word) (len : Nat) (place : Placement) (s : State) : Host.Outcome State Fault Refusal :=
  if memBytes < base.toNat + len then .refused .regionBeyondMemory
  else
    let job : HostJob :=
      { HostJob.initial with phase := .walking, inputBase := base, inputLen := len, pos := 8, place := place }
    let s := { s with job := job }
    if len < 8 then .next (jobFail .badSignature s)
    else (hostReading base.toNat 8 s (.ok ()
      (if signatureMatches s.mem base.toNat then { s with hostQueue := ⟨0, .walkChunk⟩ :: s.hostQueue }
       else jobFail .badSignature s))).finish

/-- Host writes of consecutive bytes, with no engine operation between them: DESIGN CHOICE, in part unsafe (log 2). -/
def memWrites : List Byte → Word → List HostEntry
  | [], _ => []
  | b :: t, a => ⟨0, .memWrite a b⟩ :: memWrites t (a + 1)

/-- The decode call with a file (R82): "reads the whole file into memory, then delegates" (log 28). -/
def openFile (contents : List Byte) (base : Word) (place : Placement) (s : State) :
    Host.Outcome State Fault Refusal :=
  if memBytes < base.toNat + contents.length then .refused .regionBeyondMemory
  else .next
    { s with hostQueue := memWrites contents base ++ [⟨0, .openImage base contents.length place⟩] ++ s.hostQueue }

/-! ### The chunk types -/

/-- `pos <- pos + 12 + length` (R84). -/
def advanceChunk (s : State) : State :=
  { s with job := { s.job with pos := s.job.pos + 12 + s.job.chunkLen.toNat } }

/-- The address of the current chunk's payload (R84). -/
def payloadAddress (s : State) : Nat := s.job.inputBase.toNat + s.job.pos + 8

/-- The seven IHDR fields in payload order (R85). -/
def readIhdr (a : Nat) (s : State) : Run Ihdr :=
  (memReadBe32 a s).bind fun w s =>
  (memReadBe32 (a + 4) s).bind fun h s =>
  (memRead (a + 8) s).bind fun depth s =>
  (memRead (a + 9) s).bind fun ctype s =>
  (memRead (a + 10) s).bind fun comp s =>
  (memRead (a + 11) s).bind fun filt s =>
  (memRead (a + 12) s).bind fun inter s => .ok ⟨w, h, depth, ctype, comp, filt, inter⟩ s

/-- The restricted subset of R85 for a recorded header. -/
def Ihdr.supported (h : Ihdr) : Bool :=
  formatSupported h.width h.height h.bitDepth h.colorType h.compression h.filter h.interlace

/-- CHUNK_IHDR (R85): the first IHDR is recorded if it is 13 bytes and in the supported subset, else the call fails; a later
one is skipped (90_conflicts C5). -/
def execChunkIhdr (s : State) : Host.Outcome State Fault Refusal :=
  if s.job.ihdr.isSome then .next (advanceChunk s)
  else if s.job.chunkLen ≠ 13 then .next (jobFail .unsupportedImageFormat s)
  else ((hostReading (payloadAddress s) 13 s (readIhdr (payloadAddress s) s)).bind fun h s =>
    .ok () (if h.supported then advanceChunk { s with job := { s.job with ihdr := some h } }
            else jobFail .unsupportedImageFormat s)).finish

/-- CHUNK_IDAT (R86): the payload is one more segment; no byte is copied. -/
def execChunkIdat (s : State) : Host.Outcome State Fault Refusal :=
  .next (advanceChunk { s with job := { s.job with
    segs := s.job.segs ++ [⟨BitVec.ofNat 32 (payloadAddress s), s.job.chunkLen⟩] } })

/-- CHUNK_OTHER (R87): skipped. -/
def execChunkOther (_tag : BitVec 32) (s : State) : Host.Outcome State Fault Refusal := .next (advanceChunk s)

/-! ### The end of the walk -/

/-- The four bytes of a word, least significant first. -/
def le32Bytes (v : Word) : List Byte :=
  [v.extractLsb' 0 8, v.extractLsb' 8 8, v.extractLsb' 16 8, v.extractLsb' 24 8]

/-- The segment table as bytes, one descriptor per IDAT in order (R41, R90). -/
def tableBytes (segs : List Segment) : List Byte :=
  segs.flatMap fun g => le32Bytes g.addr ++ le32Bytes g.len

/-- IHDR_FMT0 as the host writes it (R90). -/
def fmt0Word (h : Ihdr) : Word := h.filter ++ h.compression ++ h.colorType ++ h.bitDepth

/-- IHDR_FMT1 as the host writes it: the interlace byte and IHDR_PRESENT (R90). -/
def fmt1Word (h : Ihdr) : Word := 1#24 ++ h.interlace

/-- A host write of a register by offset. -/
def regWriteEntry (offset : BitVec 8) (data : Word) : HostEntry := ⟨0, .regWrite 4 offset data⟩

/-- The launch (R90): the segment table, the eight registers, CTRL.START (with IRQ_EN if wanted), the wait for the result. No
operation of a decode that is already running falls between these actions. DESIGN CHOICE, in part unsafe: R12 and R14 leave it
open (log 2). -/
def launchActions (h : Ihdr) (segs : List Segment) (p : Placement) : List HostEntry :=
  memWrites (tableBytes segs) p.segtab ++
  [ regWriteEntry 0x08 h.width, regWriteEntry 0x0C h.height, regWriteEntry 0x10 (fmt0Word h),
    regWriteEntry 0x14 (fmt1Word h), regWriteEntry 0x18 p.segtab,
    regWriteEntry 0x1C (BitVec.ofNat 32 segs.length), regWriteEntry 0x20 p.work, regWriteEntry 0x24 p.out,
    regWriteEntry 0x00 (if p.irqEn then 5 else 1), ⟨0, .takeResult⟩ ]

/-- The work region of an image: `work` bytes where the host puts it (R89). -/
def allocWork (h : Ihdr) (p : Placement) : Region :=
  ⟨p.work.toNat, workBytes h.width.toNat h.height.toNat (bytesPerPixel h.colorType)⟩

/-- The output region of an image: `out = height × width × bpp` bytes (R89). -/
def allocOut (h : Ihdr) (p : Placement) : Region :=
  ⟨p.out.toNat, h.height.toNat * (h.width.toNat * bytesPerPixel h.colorType)⟩

/-- A segment of the chain as a region. -/
def Segment.region (g : Segment) : Region := ⟨g.addr.toNat, g.len.toNat⟩

/-- The allocated regions and the segment table meet duty 1 of R42 (R89); the segments lie in the input, which does. -/
def allocationFits (work out table : Region) : Bool := work.fits && out.fits && table.fits

/-- The allocated regions meet duty 2 of R42 (R89), and nothing more is asked: they may lie over input bytes outside the IDAT
payloads. DESIGN CHOICE, unsafe (log 16). -/
def allocationDisjoint (work out table : Region) (segs : List Segment) : Bool :=
  !work.overlaps out && clearOf work out table && segs.all fun g => clearOf work out g.region

/-- The end of the walk for a value of `MAX_WORK_BYTES`: IHDR and IDAT present (R88), the size bound and the allocation (R89),
then the launch (R90). Where the segment table lies relative to the input is the host's choice (log 16). While BUSY = 1 the
launch's register writes and its START are ignored like any others (R25, R139; log 18). -/
def endWalkWith (maxWork : Nat) (s : State) : Host.Outcome State Fault Refusal :=
  match s.job.ihdr with
  | none => .next (jobFail .missingHeaderOrData s)
  | some h =>
    if s.job.segs = [] then .next (jobFail .missingHeaderOrData s)
    else if maxWork < workBytes h.width.toNat h.height.toNat (bytesPerPixel h.colorType) then
      .next (jobFail .unsupportedImageFormat s)
    else
      let work := allocWork h s.job.place
      let out := allocOut h s.job.place
      let table := tableRegion s.job.place.segtab.toNat s.job.segs.length
      if allocationFits work out table = false then .refused .regionBeyondMemory
      else if allocationDisjoint work out table s.job.segs = false then .refused .regionsOverlap
      else .next { s with
        job := { s.job with phase := .launched, work := some work, out := some out }
        hostQueue := launchActions h s.job.segs s.job.place ++ s.hostQueue }

/-- The end of the walk (R88 to R90). -/
def endWalk (s : State) : Host.Outcome State Fault Refusal := endWalkWith Config.maxWorkBytes s

/-- The result of the decode call (R82, R90): the image on DONE, the error on ERROR; in IDLE the block was reset in between
(log 19). -/
def jobOutcome (s : State) : JobResult :=
  if s.isDone then .image s.job.place.out s.cfg.ihdrWidth s.cfg.ihdrHeight (s.sizes.outChannels.setWidth 32)
  else if s.isError then .failure s.errCode
  else .abandoned

/-- The wait of the launch ends: the host reads STATUS with BUSY = 0, frees the work buffer in every case and the output buffer
unless DONE, and the call returns (R90, R156). -/
def takeResult (s : State) : State :=
  if s.job.phase ≠ .launched then s
  else { hostReadStatus s with
    job := { s.job with
      phase := .returned
      work := none
      out := if s.isDone then s.job.out else none
      result := jobOutcome s } }

end Sys2Proof.Machine
end

