-- ==== Sys2Proof/Machine/Dynamic.lean ====
section
/-! DEFINITION. The meanings of the code-length symbols (43_inflate_blocks R109 to R112), elements of operation
DYNAMIC_TABLES. The symbol itself has been decoded with CLT; its extra bits are read here. -/

namespace Sys2Proof.Machine

/-- `LENS[i .. i+k-1] <- v`. -/
def setLengths (v : BitVec 4) (i : Nat) : Nat → List (BitVec 4) → List (BitVec 4)
  | 0, lens => lens
  | k + 1, lens => (setLengths v i k lens).set (i + k) v

/-- `rep` entries `v` appended to the code lengths, or `InvalidCodeLengths` when they would pass HLIT + HDIST (R110, D17). -/
def appendLengths (v : BitVec 4) (rep : Nat) (s : State) : Run Unit :=
  if s.dyn.hlit.toNat + s.dyn.hdist.toNat < s.dyn.nl.toNat + rep then .raise .invalidCodeLengths s
  else .ok ()
    { s with dyn := { s.dyn with
        lens := setLengths v s.dyn.nl.toNat rep s.dyn.lens
        nl := s.dyn.nl + BitVec.ofNat 9 rep } }

/-- CL (R109): one code length. -/
def execCl (len : BitVec 4) (s : State) : Host.Outcome State Fault Refusal :=
  .next { s with dyn := { s.dyn with lens := s.dyn.lens.set s.dyn.nl.toNat len, nl := s.dyn.nl + 1 } }

/-- CL_16 (R110): the previous length 3 to 6 times. -/
def execCl16 (s : State) : Host.Outcome State Fault Refusal :=
  (if s.dyn.nl = 0 then .raise .invalidCodeLengths s
   else
    let prev := s.dyn.lens.getD (s.dyn.nl.toNat - 1) 0
    (readBits 2 s).bind fun e s => appendLengths prev (3 + e) s).finish

/-- CL_17 (R111): length 0, 3 to 10 times. -/
def execCl17 (s : State) : Host.Outcome State Fault Refusal :=
  ((readBits 3 s).bind fun e s => appendLengths 0 (3 + e) s).finish

/-- CL_18 (R112): length 0, 11 to 138 times. -/
def execCl18 (s : State) : Host.Outcome State Fault Refusal :=
  ((readBits 7 s).bind fun e s => appendLengths 0 (11 + e) s).finish

end Sys2Proof.Machine
end

