-- ==== Sys2Proof/Machine/Filter.lean ====
section
/-! DEFINITION. The meanings of the filter types (45_filter R128 to R136). The filter-type byte of the row has been read; one
step reconstructs one scanline. -/

namespace Sys2Proof.Machine

/-- A predictor `pred(FT, a, b, c)` on exact integers (R130). -/
abbrev Predictor := Nat → Nat → Nat → Nat

/-- None (R131). -/
def predNone : Predictor := fun _ _ _ => 0

/-- Sub (R132). -/
def predSub : Predictor := fun a _ _ => a

/-- Up (R133). -/
def predUp : Predictor := fun _ b _ => b

/-- Average (R134): the sum is exact. -/
def predAverage : Predictor := fun a b _ => (a + b) / 2

/-- `paeth(a, b, c)` (R135): exact distances, ties broken in the order a, b, c. -/
def paeth : Predictor := fun a b c =>
  let p : Int := (a : Int) + b - c
  let pa := (p - a).natAbs
  let pb := (p - b).natAbs
  let pc := (p - c).natAbs
  if pa ≤ pb ∧ pa ≤ pc then a else if pb ≤ pc then b else c

/-- The address of output byte (`row`, `col`) (R128). -/
def outAddress (s : State) (row col : Nat) : Nat := s.lat.obase.toNat + row * s.lat.stride.toNat + col

/-- The address of filtered byte `col` of scanline `row`, after its filter-type byte (R64, R128). -/
def filteredAddress (s : State) (row col : Nat) : Nat :=
  s.lat.wbase.toNat + row * (s.lat.stride.toNat + 1) + 1 + col

/-- A neighbour byte (R129): the output byte at the address where the condition holds, else 0. -/
def neighbour (present : Bool) (addr : Nat) (s : State) : Run Byte :=
  if present then memRead addr s else .ok 0 s

/-- One byte of the loop of R128 at column `COL`. -/
def filterByte (pred : Predictor) (s : State) : Run Unit :=
  let row := s.row.toNat
  let col := s.col.toNat
  let bpp := s.lat.bpp.toNat
  (memRead (filteredAddress s row col) s).bind fun x s =>
  (neighbour (decide (bpp ≤ col)) (outAddress s row (col - bpp)) s).bind fun a s =>
  (neighbour (decide (1 ≤ row)) (outAddress s (row - 1) col) s).bind fun b s =>
  (neighbour (decide (1 ≤ row ∧ bpp ≤ col)) (outAddress s (row - 1) (col - bpp)) s).bind fun c s =>
  (memWrite (outAddress s row col) (BitVec.ofNat 8 (x.toNat + pred a.toNat b.toNat c.toNat)) s).bind fun _ s =>
  .ok () { s with col := s.col + 1 }

/-- The columns of a row, `n` left. -/
def filterColumns (pred : Predictor) : Nat → State → Run Unit
  | 0, s => .ok () s
  | n + 1, s => (filterByte pred s).bind fun _ s => filterColumns pred n s

/-- The end of a row (R128): the next row, or DONE after the last one. -/
def rowEnd (s : State) : State :=
  let s := { s with row := s.row + 1 }
  if s.row = s.lat.h then goto .done s else s

/-- Operation FILTER for a filter type 0 to 4 (R128). -/
def filterRow (ft : Byte) (pred : Predictor) (s : State) : Host.Outcome State Fault Refusal :=
  ((filterColumns pred s.lat.stride.toNat { s with ft := ft, col := 0 }).bind fun _ s => .ok () (rowEnd s)).finish

/-- Operation FILTER for an unrecognized filter type (R128, R136): no byte of the row is written. -/
def filterInvalid (ft : Byte) (s : State) : Host.Outcome State Fault Refusal :=
  (Run.raise (α := Unit) .unsupportedFilterType { s with ft := ft }).finish

/-- FT_NONE (R131). -/
def execFtNone (s : State) : Host.Outcome State Fault Refusal := filterRow 0 predNone s

/-- FT_SUB (R132). -/
def execFtSub (s : State) : Host.Outcome State Fault Refusal := filterRow 1 predSub s

/-- FT_UP (R133). -/
def execFtUp (s : State) : Host.Outcome State Fault Refusal := filterRow 2 predUp s

/-- FT_AVERAGE (R134). -/
def execFtAverage (s : State) : Host.Outcome State Fault Refusal := filterRow 3 predAverage s

/-- FT_PAETH (R135). -/
def execFtPaeth (s : State) : Host.Outcome State Fault Refusal := filterRow 4 paeth s

/-- FT_INVALID_5 (R136). -/
def execFtInvalid5 (s : State) : Host.Outcome State Fault Refusal := filterInvalid 5 s

/-- FT_INVALID_6_7 (R136). -/
def execFtInvalid6To7 (low : BitVec 1) (s : State) : Host.Outcome State Fault Refusal :=
  filterInvalid (3#7 ++ low) s

/-- FT_INVALID_08_0F (R136). -/
def execFtInvalid08To0F (low : BitVec 3) (s : State) : Host.Outcome State Fault Refusal :=
  filterInvalid (1#5 ++ low) s

/-- FT_INVALID_10_1F (R136). -/
def execFtInvalid10To1F (low : BitVec 4) (s : State) : Host.Outcome State Fault Refusal :=
  filterInvalid (1#4 ++ low) s

/-- FT_INVALID_20_3F (R136). -/
def execFtInvalid20To3F (low : BitVec 5) (s : State) : Host.Outcome State Fault Refusal :=
  filterInvalid (1#3 ++ low) s

/-- FT_INVALID_40_7F (R136). -/
def execFtInvalid40To7F (low : BitVec 6) (s : State) : Host.Outcome State Fault Refusal :=
  filterInvalid (1#2 ++ low) s

/-- FT_INVALID_80_FF (R136). -/
def execFtInvalid80ToFF (low : BitVec 7) (s : State) : Host.Outcome State Fault Refusal :=
  filterInvalid (1#1 ++ low) s

end Sys2Proof.Machine
end

