-- ==== Sys2Proof/Machine/Zlib.lean ====
section
/-! DEFINITION. The meanings of the zlib header and block header rows (43_inflate_blocks R100, R101). Each is executed after
its selector has been read. -/

namespace Sys2Proof.Machine

/-- ZHDR (R100): the check has passed; FLG is read and ignored, and the block loop starts. -/
def execZhdr (_cinfo : BitVec 4) (s : State) : Host.Outcome State Fault Refusal :=
  ((readByte s).bind fun _flg s => .ok () (goto .blockHeader s)).finish

/-- A CMF byte whose CM is not 8 (R100): FLG is not read. -/
def badCompressionMethod (s : State) : Host.Outcome State Fault Refusal :=
  (Run.raise (α := Unit) .unsupportedCompressionMethod s).finish

/-- ZHDR_BAD_CM_0_7 (R100, R72). -/
def execZhdrBadCm0To7 (_cinfo : BitVec 4) (_cm : BitVec 3) (s : State) : Host.Outcome State Fault Refusal :=
  badCompressionMethod s

/-- ZHDR_BAD_CM_9 (R100, R72). -/
def execZhdrBadCm9 (_cinfo : BitVec 4) (s : State) : Host.Outcome State Fault Refusal :=
  badCompressionMethod s

/-- ZHDR_BAD_CM_10_11 (R100, R72). -/
def execZhdrBadCm10To11 (_cinfo : BitVec 4) (_low : BitVec 1) (s : State) : Host.Outcome State Fault Refusal :=
  badCompressionMethod s

/-- ZHDR_BAD_CM_12_15 (R100, R72). -/
def execZhdrBadCm12To15 (_cinfo : BitVec 4) (_low : BitVec 2) (s : State) : Host.Outcome State Fault Refusal :=
  badCompressionMethod s

/-- The latches and counter every block header writes, the reserved type's too (R101). -/
def latchBlock (bfinal : BitVec 1) (btype : BitVec 2) (s : State) : State :=
  { s with bfinal := bfinal, btype := btype, blockCount := s.blockCount + 1 }

/-- BLOCK_STORED (R101): on to STORED_BLOCK (R103, R104 in `runStoredBlock`). -/
def execBlockStored (bfinal : BitVec 1) (s : State) : Host.Outcome State Fault Refusal :=
  .next (goto .storedBlock (latchBlock bfinal 0 s))

/-- BLOCK_FIXED (R101): on to FIXED_TABLES (R105 in `runFixedTables`). -/
def execBlockFixed (bfinal : BitVec 1) (s : State) : Host.Outcome State Fault Refusal :=
  .next (goto .fixedTables (latchBlock bfinal 1 s))

/-- BLOCK_DYNAMIC (R101): on to DYNAMIC_TABLES (R106, R107 in `runDynHeader`). -/
def execBlockDynamic (bfinal : BitVec 1) (s : State) : Host.Outcome State Fault Refusal :=
  .next (goto .dynamicTables (latchBlock bfinal 2 s))

/-- BLOCK_RESERVED (R101): "always a decode failure". -/
def execBlockReserved (bfinal : BitVec 1) (s : State) : Host.Outcome State Fault Refusal :=
  (Run.raise (α := Unit) .reservedBlockType (latchBlock bfinal 3 s)).finish

end Sys2Proof.Machine
end

