-- ==== Sys2Proof/Machine/Engine.lean ====
section
/-! DEFINITION. The engine operations that no row of the opcode table selects: CONFIG_CHECK (46_control R140), STORED_BLOCK
(43_inflate_blocks R103, R104), FIXED_TABLES (R105), the beginning and end of DYNAMIC_TABLES (R106, R107, R113), TRAILER
(R114) and SIZE_CHECK (R115). -/

namespace Sys2Proof.Machine

/-! ### CONFIG_CHECK -/

/-- The latches that CONFIG_CHECK copies from the registers first (R140). -/
def latchConfig (s : State) : State :=
  { s with
    lat := { s.lat with
      w := s.cfg.ihdrWidth
      h := s.cfg.ihdrHeight
      segtab := s.cfg.segtabBase
      nseg := s.cfg.segCount
      wbase := s.cfg.workBase
      obase := s.cfg.outBase } }

/-- The sizes and OUT_CHANNELS that a passed check sets (R140, R22). -/
def latchSizes (bpp : Nat) (s : State) : State :=
  { s with
    lat := { s.lat with stride := BitVec.ofNat 32 (s.lat.w.toNat * bpp) }
    sizes :=
      { outChannels := BitVec.ofNat 3 bpp
        workSize := BitVec.ofNat 32 (workBytes s.lat.w.toNat s.lat.h.toNat bpp)
        outSize := BitVec.ofNat 32 (s.lat.h.toNat * (s.lat.w.toNat * bpp)) } }

/-- After the checks: the host duties 1 and 2, which the engine does not check and a broken one of which the model refuses
(20_memory R42, log 10), then the cursor on segment 0 and ZLIB_HEADER (R140). -/
def beginStream (s : State) : Run Unit :=
  if !regionsFit s then .refuse .regionBeyondMemory
  else if !buffersDisjoint s then .refuse .regionsOverlap
  else (cursorInit s).bind fun _ s => .ok () (goto .zlibHeader s)

/-- Operation CONFIG_CHECK (R140) for a value of `MAX_WORK_BYTES`. The checks run in the order listed (R148). -/
def configCheckWith (maxWork : Nat) (s : State) : Run Unit :=
  let s := latchConfig s
  let c := s.cfg
  if c.ihdrPresent = false then .raise .missingHeaderOrData s
  else if formatSupported s.lat.w s.lat.h c.bitDepth c.colorType c.compression c.filter c.interlace = false then
    .raise .unsupportedImageFormat s
  else if s.lat.nseg = 0 then .raise .missingHeaderOrData s
  else
    let bpp := bytesPerPixel c.colorType
    let s := { s with lat := { s.lat with bpp := BitVec.ofNat 3 bpp } }
    if maxWork < workBytes s.lat.w.toNat s.lat.h.toNat bpp then .raise .unsupportedImageFormat s
    else beginStream (latchSizes bpp s)

/-- Operation CONFIG_CHECK (R140). -/
def runConfigCheck (s : State) : Host.Outcome State Fault Refusal := (configCheckWith Config.maxWorkBytes s).finish

/-! ### STORED_BLOCK -/

/-- The data copy of a stored block (R104), `n` bytes still to copy. -/
def copyStored : Nat → State → Run Unit
  | 0, s => .ok () (blockEnd s)
  | n + 1, s =>
    (readByte s).bind fun b s =>
    (emit b s).bind fun _ s => copyStored n { s with storedRem := s.storedRem - 1 }

/-- The LEN and NLEN header of a stored block (R103); NLEN is read and not validated. -/
def storedHeader (s : State) : Run Unit :=
  (readByte (alignToByte s)).bind fun b0 s =>
  (readByte s).bind fun b1 s =>
  (readBytes 2 s).bind fun _nlen s => .ok () { s with storedRem := le16 b0 b1 }

/-- Operation STORED_BLOCK (R103, R104). -/
def runStoredBlock (s : State) : Host.Outcome State Fault Refusal :=
  ((storedHeader s).bind fun _ s => copyStored s.storedRem.toNat s).finish

/-! ### FIXED_TABLES -/

/-- `build(LL, …)`, then `build(DT, …)` (R105, R113). -/
def buildTables (litlen dist : List Nat) (s : State) : State :=
  { s with
    ll := build llShape litlen s.draws
    dt := build dtShape dist (s.draws + llShape.draws)
    draws := s.draws + llShape.draws + dtShape.draws }

/-- Operation FIXED_TABLES (R105). -/
def runFixedTables (s : State) : Host.Outcome State Fault Refusal :=
  .next (goto .blockBody (buildTables fixedLitlenLengths fixedDistLengths s))

/-! ### DYNAMIC_TABLES -/

/-- The three counts (R106). -/
def dynCounts (s : State) : Run Unit :=
  (readBits 5 s).bind fun hl s =>
  let s := { s with dyn := { s.dyn with hlit := BitVec.ofNat 9 (hl + 257) } }
  (readBits 5 s).bind fun hd s =>
  let s := { s with dyn := { s.dyn with hdist := BitVec.ofNat 6 (hd + 1) } }
  (readBits 4 s).bind fun hc s =>
  .ok () { s with dyn := { s.dyn with hclen := BitVec.ofNat 5 (hc + 4) } }

/-- The 3-bit code-length-code lengths of the listed symbols, read in that order into `cl` (R107). -/
def readClLengths : List Nat → List Nat → State → Run (List Nat)
  | [], cl, s => .ok cl s
  | p :: ps, cl, s => (readBits 3 s).bind fun v s => readClLengths ps (cl.set p v) s

/-- The code-length table (R107); the symbols that are not sent have length 0 (D15). -/
def dynClTable (s : State) : Run Unit :=
  (readClLengths (clOrder.take s.dyn.hclen.toNat) (List.replicate clCap 0) s).bind fun cl s =>
  .ok () { s with clt := build cltShape cl s.draws, draws := s.draws + cltShape.draws, dyn := { s.dyn with nl := 0 } }

/-- The first part of operation DYNAMIC_TABLES (R106, R107); the code-length symbols follow (R108). -/
def runDynHeader (s : State) : Host.Outcome State Fault Refusal :=
  ((dynCounts s).bind fun _ s => (dynClTable s).bind fun _ s => .ok () { s with phase := .clSymbols }).finish

/-- `NL` = HLIT + HDIST: every code length is read (R108, R113). -/
def lengthsComplete (s : State) : Bool := s.dyn.nl.toNat == s.dyn.hlit.toNat + s.dyn.hdist.toNat

/-- The code lengths `LENS[a .. a+n-1]`. -/
def lensSlice (s : State) (a n : Nat) : List Nat := ((s.dyn.lens.drop a).take n).map BitVec.toNat

/-- The last part of operation DYNAMIC_TABLES (R113). -/
def runDynFinish (s : State) : Host.Outcome State Fault Refusal :=
  .next (goto .blockBody
    (buildTables (lensSlice s 0 s.dyn.hlit.toNat) (lensSlice s s.dyn.hlit.toNat s.dyn.hdist.toNat) s))

/-! ### TRAILER and SIZE_CHECK -/

/-- Operation TRAILER (R114): the 4 bytes are read and not validated. -/
def runTrailer (s : State) : Host.Outcome State Fault Refusal :=
  ((readBytes 4 (alignToByte s)).bind fun _adler s => .ok () (goto .sizeCheck s)).finish

/-- Operation SIZE_CHECK (R115). -/
def runSizeCheck (s : State) : Host.Outcome State Fault Refusal :=
  (if s.outCount = s.sizes.workSize then Run.ok () (goto .filter { s with row := 0 })
   else .raise .outputSizeMismatch s).finish

end Sys2Proof.Machine
end

