-- ==== Sys2Proof/Machine/Fetch.lean ====
section
/-! DEFINITION. What the next step is: the agent that moves (10_state R14, 00_scope R12), the element it fetches and its
format (30_encoding R71), or the operation it runs without a selector. -/

namespace Sys2Proof.Machine

/-- A turn: a selector fetched, to be decoded and executed in the state after the fetch, or an operation without one. -/
inductive Turn where
  | element (f : Format) (w : BitVec 40) (s : State)
  | silent (o : Host.Outcome State Fault Refusal)

/-- A fetched number as a selector of a format; a raise during the fetch is the operation's (R147). -/
def Run.element (f : Format) (x : Run Nat) : Turn :=
  match x with
  | .ok v s => .element f (BitVec.ofNat 40 v) s
  | .raise e s => .silent (.next (enterError e s))
  | .fault r => .silent (.fault r)
  | .refuse r => .silent (.refused r)

/-- The address of the filter-type byte of the current row: `rb` of R128. -/
def filterTypeAddress (s : State) : Nat := s.lat.wbase.toNat + s.row.toNat * (s.lat.stride.toNat + 1)

/-- The engine's turn at an operation boundary, by STATE (R71, R98). In IDLE, DONE and ERROR it waits (R143, R154; log 17). -/
def engineTurn (s : State) : Turn :=
  match s.st with
  | .idle => .silent (.next s)
  | .configCheck => .silent (runConfigCheck s)
  | .zlibHeader => ((readByte s).bind fun b s => .ok b.toNat s).element .zlibCmf
  | .blockHeader => (readBlockHeader s).element .blockHeader
  | .storedBlock => .silent (runStoredBlock s)
  | .fixedTables => .silent (runFixedTables s)
  | .dynamicTables => .silent (runDynHeader s)
  | .blockBody => (huffDecode s.ll s).element .litlenSymbol
  | .trailer => .silent (runTrailer s)
  | .sizeCheck => .silent (runSizeCheck s)
  | .filter => ((memRead (filterTypeAddress s) s).bind fun b s => .ok b.toNat s).element .filterType
  | .done => .silent (.next s)
  | .error => .silent (.next s)

/-- The offset in the register window of a host bus address: the 0x100 bytes at `REG_BASE` (R15). -/
def windowOffset (addr : Nat) : Option (BitVec 8) :=
  if Config.regBase ≤ addr ∧ addr < Config.regBase + 256 then
    some (BitVec.ofNat 8 (addr - Config.regBase))
  else none

/-- An aligned 32-bit access (R46). -/
def wordAccess (width : Nat) (offset : BitVec 8) : Bool := width == 4 && offset.extractLsb' 0 2 == 0#2

/-- A host read of the window (R46): STATUS is the row READ_STATUS. -/
def regReadTurn (width : Nat) (offset : BitVec 8) (s : State) : Turn :=
  if wordAccess width offset = false then .silent (.refused .badRegisterAccess)
  else if offset = 0x04#8 then .element .regRead (offset.setWidth 40) s
  else .silent (.next (hostReadRegister offset s))

/-- A host write of the window (R46): CTRL and the configuration registers have rows; a write to a read-only or reserved
register has no effect (R26, R145). -/
def regWriteTurn (width : Nat) (offset : BitVec 8) (data : Word) (s : State) : Turn :=
  if wordAccess width offset = false then .silent (.refused .badRegisterAccess)
  else if offset = 0x00#8 then .element .ctrlWrite (data.setWidth 40) s
  else if 0x08 ≤ offset.toNat ∧ offset.toNat ≤ 0x24 then .element .regWrite (data ++ offset) s
  else .silent (.next s)

/-- The host's next chunk (R84): the end of the walk, a chunk cut short, or a tag to dispatch. -/
def walkTurn (s : State) : Turn :=
  if s.job.phase ≠ .walking then .silent (.next (popHost s))
  else if s.job.inputLen ≤ s.job.pos then .silent (endWalk (popHost s))
  else if s.job.inputLen - s.job.pos < 12 then .silent (.next (jobFail .truncatedInput s))
  else match hostReading (s.job.inputBase.toNat + s.job.pos) 8 s (memReadBe32 (s.job.inputBase.toNat + s.job.pos) s) with
    | .ok len s =>
      if s.job.inputLen - s.job.pos - 12 < len.toNat then .silent (.next (jobFail .truncatedInput s))
      else ((memReadBe32 (s.job.inputBase.toNat + s.job.pos + 4) s).bind fun tag s =>
        .ok tag.toNat { s with job := { s.job with chunkLen := len } }).element .pngChunkType
    | .raise e s => .silent (.next (enterError e s))
    | .fault r => .silent (.fault r)
    | .refuse r => .silent (.refused r)

/-- The host's turn with the action at the head of its queue. Every action but `walkChunk` leaves the queue first. -/
def hostTurn (a : HostAction) (s : State) : Turn :=
  match a with
  | .regRead width offset => regReadTurn width offset (popHost s)
  | .regWrite width offset data => regWriteTurn width offset data (popHost s)
  | .busRead width addr =>
    match windowOffset addr with
    | some offset => regReadTurn width offset (popHost s)
    | none => .silent (.refused .outsideWindow)
  | .busWrite width addr data =>
    match windowOffset addr with
    | some offset => regWriteTurn width offset data (popHost s)
    | none => .silent (.refused .outsideWindow)
  | .memRead addr => .silent (hostMemRead addr (popHost s))
  | .memWrite addr byte => .silent (hostMemWrite addr byte (popHost s))
  | .openFile contents base place => .silent (openFile contents base place (popHost s))
  | .openImage base len place => .silent (openImage base len place (popHost s))
  | .walkChunk => walkTurn s
  | .takeResult => .silent (.next (takeResult (popHost s)))

/-- The head of the queue lets the engine move first: while BUSY = 1, if engine operations are due before it, or if it waits
for BUSY = 0 (R90; log 2). -/
def hostWaits (e : HostEntry) (s : State) : Bool :=
  s.busy && (decide (0 < e.after) || match e.action with
    | .takeResult => true
    | _ => false)

/-- The next turn. Inside DYNAMIC_TABLES and BLOCK_BODY the engine goes on (R12); at a boundary the host moves if it has an
action due, else the engine. -/
def turn (s : State) : Turn :=
  match s.phase with
  | .clSymbols =>
    if lengthsComplete s then .silent (runDynFinish s) else (huffDecode s.clt s).element .clSymbol
  | .distSymbol => (huffDecode s.dt s).element .distSymbol
  | .boundary =>
    match s.hostQueue with
    | [] => engineTurn s
    | e :: _ => if hostWaits e s then engineTurn (tickHost s) else hostTurn e.action s

/-! ### Placing an element where the next turn fetches it -/

/-- Eight bytes, the least significant of `w` first, at an address; the address wraps at the top of memory. -/
def putBytes : Nat → Word → Nat → Memory → Memory
  | 0, _, _, m => m
  | k + 1, a, w, m => (putBytes k (a + 1) (w / 256) m).write a.toNat (BitVec.ofNat 8 w)

/-- The bytes of `w` placed at the cursor, the cursor on the first bit of a byte with 8 bytes of its segment left. -/
def placeStream (w : Nat) (s : State) : State :=
  { s with cur := { s.cur with rem := 8, bit := 0 }, mem := putBytes 8 s.cur.addr w s.mem }

/-- A table whose one code, the bit 0, stands for `v`. -/
def oneSymbol (k : TableShape) (v : Nat) : HuffTable k :=
  { n := BitVec.ofNat _ (v + 1)
    len := tableArray _ fun s => if s = v then 1 else 0
    count := tableArray _ fun l => if l = 1 then 1 else 0
    sym := tableArray _ fun _ => BitVec.ofNat _ v
    max := 1 }

/-- The state in which the next turn fetches the selector `w` of a format (log 4). -/
def placeElement (f : Format) (w : Nat) (s : State) : State :=
  match f with
  | .zlibCmf => { placeStream w s with st := .zlibHeader, phase := .boundary, hostQueue := [] }
  | .blockHeader => { placeStream w s with st := .blockHeader, phase := .boundary, hostQueue := [] }
  | .clSymbol =>
    { placeStream 0 s with
      st := .dynamicTables, phase := .clSymbols, clt := oneSymbol _ w
      dyn := { s.dyn with hlit := 257, hdist := 1, nl := 0 } }
  | .litlenSymbol =>
    { placeStream 0 s with st := .blockBody, phase := .boundary, hostQueue := [], ll := oneSymbol _ w }
  | .distSymbol => { placeStream 0 s with st := .blockBody, phase := .distSymbol, dt := oneSymbol _ w }
  | .filterType =>
    { s with
      st := .filter, phase := .boundary, hostQueue := [], row := 0
      mem := s.mem.write s.lat.wbase.toNat (BitVec.ofNat 8 w) }
  | .ctrlWrite => { s with phase := .boundary, hostQueue := [⟨0, .regWrite 4 0x00 (BitVec.ofNat 32 w)⟩] }
  | .regRead => { s with phase := .boundary, hostQueue := [⟨0, .regRead 4 (BitVec.ofNat 8 w)⟩] }
  | .regWrite =>
    { s with
      phase := .boundary
      hostQueue := [⟨0, .regWrite 4 (BitVec.ofNat 8 w) (BitVec.ofNat 32 (w / 256))⟩] }
  | .pngChunkType =>
    { s with
      phase := .boundary
      hostQueue := [⟨0, .walkChunk⟩]
      job := { s.job with phase := .walking, inputBase := 0, inputLen := 12, pos := 0 }
      mem := (((((putBytes 4 0 0 s.mem).write 4 (BitVec.ofNat 8 (w / 16777216))).write 5
        (BitVec.ofNat 8 (w / 65536))).write 6 (BitVec.ofNat 8 (w / 256))).write 7 (BitVec.ofNat 8 w)) }

end Sys2Proof.Machine
end

