-- ==== Sys2Proof/Machine/Step.lean ====
section
/-! DEFINITION. One step: the turn of the agent that moves; a fetched selector is decoded and executed. -/

namespace Sys2Proof.Machine

/-- One step of the machine. -/
def step (s : State) : Host.Outcome State Fault Refusal :=
  match turn s with
  | .silent o => o
  | .element f w s' =>
    match decode f w with
    | .ok i => exec i s'
    | .error _ => .refused .noSuchElement

/-- The state whose very next step fetches the table word `w` and runs it (log 4), in the format that `tableFormat` picks
for a bare word (log 3). -/
def State.withFetchWord (s : State) (nbits w : Nat) : State := placeElement (tableFormat nbits w) w s

end Sys2Proof.Machine
end

