-- ==== Sys2Proof/Safety.lean ====
section
/-! DEFINITION. The terms of the claims: the stream that is left at the cursor (40_bit_reader R81), the images the
registers describe (46_control R140), the registers by name, and the invariant `Inv` that every step keeps. -/

namespace Sys2Proof.Machine

/-! ### The stream left at the cursor -/

/-- The addresses of a segment's bytes from an address on, `n` of them. -/
def segmentAddrs (addr : Word) : Nat → List Nat
  | 0 => []
  | n + 1 => addr.toNat :: segmentAddrs (addr + 1) n

/-- `len_i` of descriptor `i` (R41). -/
def segmentLength (s : State) (i : Nat) : Nat := (s.mem.readLe32 (s.lat.segtab.toNat + 8 * i + 4)).toNat

/-- The addresses of the bytes of the `k` segments from descriptor `i` on, in descriptor order (R41, R55). -/
def laterAddrs (m : Memory) (segtab : Nat) : Nat → Nat → List Nat
  | 0, _ => []
  | k + 1, i =>
    segmentAddrs (m.readLe32 (segtab + 8 * i)) (m.readLe32 (segtab + 8 * i + 4)).toNat ++ laterAddrs m segtab k (i + 1)

/-- The addresses of the stream's bytes that are not fully consumed, in stream order. -/
def restAddrs (s : State) : List Nat :=
  segmentAddrs s.cur.addr s.cur.rem.toNat
    ++ laterAddrs s.mem s.lat.segtab.toNat (s.lat.nseg.toNat - (s.cur.seg.toNat + 1)) (s.cur.seg.toNat + 1)

/-- The bytes of the stream that are not fully consumed: the suffix of the `S` of R81 that starts at byte floor(p / 8). -/
def restBytes (s : State) : List Byte := (restAddrs s).map s.mem.read

/-- The same from the next byte boundary on (R78): the byte at the cursor is left out if a bit of it is consumed. -/
def alignedBytes (s : State) : List Byte := if s.cur.bit = 0 then restBytes s else (restBytes s).drop 1

/-- The bits of a byte in the order they are consumed, bit 0 first (R9, R43). -/
def byteBits (b : Byte) : List Bool :=
  [b.getLsbD 0, b.getLsbD 1, b.getLsbD 2, b.getLsbD 3, b.getLsbD 4, b.getLsbD 5, b.getLsbD 6, b.getLsbD 7]

/-- The bits of the stream that are not consumed, in the order they are read: the suffix of R81 that starts at bit p. -/
def restBits (s : State) : List Bool := ((restBytes s).flatMap byteBits).drop s.cur.bit.toNat

/-- The number whose bit 0 is the first bit listed (R77). -/
def bitsValue : List Bool → Nat
  | [] => 0
  | b :: t => b.toNat + 2 * bitsValue t

/-- The `l` bits of a code, most significant first (R93): the `l` low bits of `code`. -/
def codeBits (code : Nat) : Nat → List Bool
  | 0 => []
  | l + 1 => code.testBit l :: codeBits code l

/-- The segment table lies in memory (R42 duty 1). -/
def tableReadable (s : State) : Prop := s.lat.segtab.toNat + 8 * s.lat.nseg.toNat ≤ memBytes

/-- The stream has `n` bits left and its table can be read. -/
def bitsLeft (n : Nat) (s : State) : Prop := tableReadable s ∧ n ≤ (restBits s).length

/-- "If CUR_BIT ≠ 0 then CUR_REM ≥ 1" (R28). -/
def Cursor.sound (c : Cursor) : Prop := c.bit ≠ 0 → c.rem ≠ 0

/-! ### The flat view of R81 -/

/-- `S` of R81: the bytes of all segments in descriptor order. -/
def wholeStream (s : State) : List Byte :=
  (laterAddrs s.mem s.lat.segtab.toNat s.lat.nseg.toNat 0).map s.mem.read

/-- `len_0 + … + len_(n-1)`. -/
def lengthsBefore (s : State) : Nat → Nat
  | 0 => 0
  | n + 1 => lengthsBefore s n + segmentLength s n

/-- `p` of R81. -/
def streamPosition (s : State) : Nat :=
  8 * (lengthsBefore s s.cur.seg.toNat + (segmentLength s s.cur.seg.toNat - s.cur.rem.toNat)) + s.cur.bit.toNat

/-- The cursor stands in the segment it names (R28): where `cursor_init` puts it and every read leaves it. -/
def cursorInStream (s : State) : Prop :=
  s.cur.seg.toNat < s.lat.nseg.toNat ∧ s.cur.rem.toNat ≤ segmentLength s s.cur.seg.toNat
    ∧ s.cur.addr = s.mem.readLe32 (s.lat.segtab.toNat + 8 * s.cur.seg.toNat)
        + BitVec.ofNat 32 (segmentLength s s.cur.seg.toNat - s.cur.rem.toNat)
    ∧ s.cur.sound

/-! ### Regions -/

/-- The address lies in the work buffer (R40). -/
def inWork (s : State) (a : Nat) : Prop :=
  s.lat.wbase.toNat ≤ a ∧ a < s.lat.wbase.toNat + s.sizes.workSize.toNat

/-- The address lies in the output buffer (R40). -/
def inOut (s : State) (a : Nat) : Prop :=
  s.lat.obase.toNat ≤ a ∧ a < s.lat.obase.toNat + s.sizes.outSize.toNat

/-- The address lies in the segment table (R40, R41). -/
def inTable (s : State) (a : Nat) : Prop :=
  s.lat.segtab.toNat ≤ a ∧ a < s.lat.segtab.toNat + 8 * s.lat.nseg.toNat

/-- The address lies in an input segment (R40, R41). -/
def inSegments (s : State) (a : Nat) : Prop :=
  ∃ k, k < s.lat.nseg.toNat ∧ (s.mem.readLe32 (s.lat.segtab.toNat + 8 * k)).toNat ≤ a
    ∧ a < (s.mem.readLe32 (s.lat.segtab.toNat + 8 * k)).toNat + segmentLength s k

/-- The two regions a host allocates overlap neither each other nor the segment table nor an IDAT payload (R89, R42 duty 2). -/
def allocationApart (work out table : Region) (segs : List Segment) : Prop :=
  (∀ a, ¬ (work.holds a = true ∧ out.holds a = true))
    ∧ ∀ a, work.holds a = true ∨ out.holds a = true →
      table.holds a = false ∧ ∀ g ∈ segs, ¬ (g.addr.toNat ≤ a ∧ a < g.addr.toNat + g.len.toNat)

/-- No byte of the segment table and no byte of the stream that is left lies in the work buffer (R42 duty 2). -/
def streamApart (s : State) : Prop :=
  ∀ a, inWork s a →
    ¬ (s.lat.segtab.toNat ≤ a ∧ a < s.lat.segtab.toNat + 8 * s.lat.nseg.toNat) ∧ a ∉ restAddrs s

/-! ### Canonical codes -/

/-- `first_l` of R94: `first_1 = 0`, `first_l = (first_(l-1) + count[l-1]) × 2`. -/
def firstCode (lens : List Nat) : Nat → Nat
  | 0 => 0
  | l + 1 => (firstCode lens l + lengthCount lens l) * 2

/-- The canonical code of symbol `v` (R94): `first_l + j`, `j` the symbols of the same length before it. -/
def canonicalCode (lens : List Nat) (v : Nat) : Nat :=
  firstCode lens (lens.getD v 0) + (lens.take v).count (lens.getD v 0)

/-- The lengths over-subscribe no code space: Σ 2^(-L[s]) ≤ 1 over the present symbols (R94), for lengths up to `m`. -/
def kraft (m : Nat) (lens : List Nat) : Prop :=
  ((lens.filter (· ≠ 0)).map fun l => 2 ^ (m - l)).sum ≤ 2 ^ m

/-! ### The rows of R67 and R68 -/

/-- A length or distance symbol with its base and its number of extra bits. -/
structure MatchRow where
  instr : Instr
  base  : Nat
  extra : Nat

/-- The length symbols with LBASE and LEXT, row by row as R67 lists them. -/
def lengthRows : List MatchRow :=
  [
    ⟨.len257, 3, 0⟩, ⟨.len258, 4, 0⟩, ⟨.len259, 5, 0⟩, ⟨.len260, 6, 0⟩,
    ⟨.len261, 7, 0⟩, ⟨.len262, 8, 0⟩, ⟨.len263, 9, 0⟩, ⟨.len264, 10, 0⟩,
    ⟨.len265, 11, 1⟩, ⟨.len266, 13, 1⟩, ⟨.len267, 15, 1⟩, ⟨.len268, 17, 1⟩,
    ⟨.len269, 19, 2⟩, ⟨.len270, 23, 2⟩, ⟨.len271, 27, 2⟩, ⟨.len272, 31, 2⟩,
    ⟨.len273, 35, 3⟩, ⟨.len274, 43, 3⟩, ⟨.len275, 51, 3⟩, ⟨.len276, 59, 3⟩,
    ⟨.len277, 67, 4⟩, ⟨.len278, 83, 4⟩, ⟨.len279, 99, 4⟩, ⟨.len280, 115, 4⟩,
    ⟨.len281, 131, 5⟩, ⟨.len282, 163, 5⟩, ⟨.len283, 195, 5⟩, ⟨.len284, 227, 5⟩,
    ⟨.len285, 258, 0⟩ ]

/-- The distance symbols with DBASE and DEXT, row by row as R68 lists them. -/
def distanceRows : List MatchRow :=
  [
    ⟨.dist0, 1, 0⟩, ⟨.dist1, 2, 0⟩, ⟨.dist2, 3, 0⟩, ⟨.dist3, 4, 0⟩,
    ⟨.dist4, 5, 1⟩, ⟨.dist5, 7, 1⟩, ⟨.dist6, 9, 2⟩, ⟨.dist7, 13, 2⟩,
    ⟨.dist8, 17, 3⟩, ⟨.dist9, 25, 3⟩, ⟨.dist10, 33, 4⟩, ⟨.dist11, 49, 4⟩,
    ⟨.dist12, 65, 5⟩, ⟨.dist13, 97, 5⟩, ⟨.dist14, 129, 6⟩, ⟨.dist15, 193, 6⟩,
    ⟨.dist16, 257, 7⟩, ⟨.dist17, 385, 7⟩, ⟨.dist18, 513, 8⟩, ⟨.dist19, 769, 8⟩,
    ⟨.dist20, 1025, 9⟩, ⟨.dist21, 1537, 9⟩, ⟨.dist22, 2049, 10⟩, ⟨.dist23, 3073, 10⟩,
    ⟨.dist24, 4097, 11⟩, ⟨.dist25, 6145, 11⟩, ⟨.dist26, 8193, 12⟩, ⟨.dist27, 12289, 12⟩,
    ⟨.dist28, 16385, 13⟩, ⟨.dist29, 24577, 13⟩ ]

/-! ### Whose turn it is -/

/-- The engine moves next at an operation boundary (R14): no host action is due. -/
def engineMoves (s : State) : Prop :=
  s.phase = .boundary ∧ (match s.hostQueue with
    | [] => True
    | e :: _ => hostWaits e s = true)

/-- The host moves next, with this action. -/
def hostMoves (s : State) (a : HostAction) : Prop :=
  s.phase = .boundary ∧ ∃ e rest, s.hostQueue = e :: rest ∧ e.action = a ∧ hostWaits e s = false

/-- The host moves next and writes `v` at an offset of the window, as a 32-bit access (R46), by offset or by bus address. -/
def hostWrites (s : State) (offset : BitVec 8) (v : Word) : Prop :=
  hostMoves s (.regWrite 4 offset v)
    ∨ ∃ addr, windowOffset addr = some offset ∧ hostMoves s (.busWrite 4 addr v)

/-- The host moves next and reads an offset of the window, as a 32-bit access (R46), by offset or by bus address. -/
def hostReads (s : State) (offset : BitVec 8) : Prop :=
  hostMoves s (.regRead 4 offset) ∨ ∃ addr, windowOffset addr = some offset ∧ hostMoves s (.busRead 4 addr)

/-! ### The states -/

/-- The states ZLIB_HEADER to FILTER: a decode that has passed its configuration check (R98). -/
def decodingState : EngineState → Bool
  | .idle | .configCheck | .done | .error => false
  | .zlibHeader | .blockHeader | .storedBlock | .fixedTables | .dynamicTables
  | .blockBody | .trailer | .sizeCheck | .filter => true

/-- A decode that has passed its configuration check is running. -/
def State.decoding (s : State) : Bool := decodingState s.st

/-- The latches hold what the registers held at START (R29, R25). -/
def State.latched (s : State) : Prop :=
  s.lat.w = s.cfg.ihdrWidth ∧ s.lat.h = s.cfg.ihdrHeight ∧ s.lat.segtab = s.cfg.segtabBase
    ∧ s.lat.nseg = s.cfg.segCount ∧ s.lat.wbase = s.cfg.workBase ∧ s.lat.obase = s.cfg.outBase

/-- The latches and size registers are those of a supported image (R22, R29, R140), exactly, without wrap-around. -/
def State.sized (s : State) : Prop :=
  (s.lat.bpp = 3 ∨ s.lat.bpp = 4) ∧ s.sizes.outChannels = s.lat.bpp
    ∧ 0 < s.lat.w.toNat ∧ 0 < s.lat.h.toNat
    ∧ s.lat.stride.toNat = s.lat.w.toNat * s.lat.bpp.toNat
    ∧ s.sizes.workSize.toNat = s.lat.h.toNat * (1 + s.lat.stride.toNat)
    ∧ s.sizes.outSize.toNat = s.lat.h.toNat * s.lat.stride.toNat

/-- The segment table, the work buffer and the output buffer lie below 2^32 (R42 duty 1). -/
def State.placed (s : State) : Prop :=
  tableReadable s ∧ s.lat.wbase.toNat + s.sizes.workSize.toNat ≤ memBytes
    ∧ s.lat.obase.toNat + s.sizes.outSize.toNat ≤ memBytes

/-! ### Filtering -/

/-- `x` of R128 at a column, as a number: the filtered byte, in the state before the row. -/
def filteredByte (s : State) (col : Nat) : Nat := (s.mem.read (filteredAddress s s.row.toNat col)).toNat

/-- `a` of R129: the reconstructed byte, so it is read from memory `m` after the row. -/
def leftByte (s : State) (m : Memory) (col : Nat) : Nat :=
  if s.lat.bpp.toNat ≤ col then (m.read (outAddress s s.row.toNat (col - s.lat.bpp.toNat))).toNat else 0

/-- `b` of R129. -/
def aboveByte (s : State) (col : Nat) : Nat :=
  if 1 ≤ s.row.toNat then (s.mem.read (outAddress s (s.row.toNat - 1) col)).toNat else 0

/-- `c` of R129. -/
def aboveLeftByte (s : State) (col : Nat) : Nat :=
  if 1 ≤ s.row.toNat ∧ s.lat.bpp.toNat ≤ col then
    (s.mem.read (outAddress s (s.row.toNat - 1) (col - s.lat.bpp.toNat))).toNat
  else 0

/-- The output row `ROW` in `m` is the reconstruction of the filtered row in `s` by a predictor (R128, R130), and every other
byte of memory is as in `s`. -/
def rowReconstructed (pred : Nat → Nat → Nat → Nat) (s : State) (m : Memory) : Prop :=
  (∀ col, col < s.lat.stride.toNat → (m.read (outAddress s s.row.toNat col)).toNat =
      (filteredByte s col + pred (leftByte s m col) (aboveByte s col) (aboveLeftByte s col)) % 256)
    ∧ ∀ a, (a < outAddress s s.row.toNat 0 ∨ outAddress s s.row.toNat s.lat.stride.toNat ≤ a) →
        m.read a = s.mem.read a

/-- A row of the filter pass is due: the sizes are the image's, the buffers lie in memory and apart (R42), ROW < H (R127). -/
def filterReady (s : State) : Prop :=
  s.st = .filter ∧ s.phase = .boundary ∧ s.sized ∧ s.placed ∧ (∀ a, ¬ (inWork s a ∧ inOut s a))
    ∧ s.row.toNat < s.lat.h.toNat

/-! ### The invariant -/

/-- What holds of every state that a run from reset can reach; `Obligations.StepKeepsInv` says that every step keeps it. -/
structure Inv (s : State) : Prop where
  /-- Memory is in its canonical form. -/
  memory : s.mem.wf
  /-- IHDR_FMT1 bits 31:9 read 0 (R20). -/
  reservedZero : s.cfg.ihdrFmt1.toNat < 512
  /-- ERR_CODE and ERR_STATE are 0 unless ERROR = 1 (R17). -/
  noErrorKept : s.st ≠ .error → s.errCode = .noError ∧ s.errState = .idle
  /-- In ERROR the code is 2 to 12 (the block never raises BadSignature, R146) and ERR_STATE is a state 1 to 10 (R147). -/
  errorKept : s.st = .error →
    s.errCode ≠ .noError ∧ s.errCode ≠ .badSignature ∧ busyState s.errState = true
  /-- Between two code-length symbols STATE is DYNAMIC_TABLES (R108). -/
  codePhase : s.phase = .clSymbols → s.st = .dynamicTables
  /-- Between a length symbol and its distance symbol STATE is BLOCK_BODY (R120). -/
  matchPhase : s.phase = .distSymbol → s.st = .blockBody
  /-- In IDLE the cursor registers hold 0 (R24). -/
  idleCursor : s.st = .idle → s.cur = ⟨0, 0, 0, 0⟩
  /-- OUT_COUNT and BLOCK_COUNT are 0 in IDLE (R24) and from START on (R139). -/
  countsZero : s.st = .idle ∨ s.st = .configCheck → s.outCount = 0 ∧ s.blockCount = 0
  /-- The size registers are 0 from START until the check passes (R22). -/
  sizesZero : s.st = .idle ∨ s.st = .configCheck → s.sizes = ⟨0, 0, 0⟩
  /-- The latches are the registers' values during a decode (R25, R29). -/
  latched : s.decoding = true → s.latched
  /-- The sizes are the image's, through DONE (R22). -/
  sized : s.decoding = true ∨ s.st = .done → s.sized
  /-- The regions lie in memory during a decode (R42 duty 1). -/
  placed : s.decoding = true → s.placed
  /-- "It never exceeds WORK_SIZE" (R30). -/
  room : s.decoding = true → s.outCount.toNat ≤ s.sizes.workSize.toNat
  /-- The filter pass starts only with a full work buffer (R115, R127); OUT_COUNT = WORK_SIZE after DONE (R24). -/
  full : s.st = .filter ∨ s.st = .done → s.outCount = s.sizes.workSize
  /-- "If CUR_BIT ≠ 0 then CUR_REM ≥ 1" (R28). -/
  cursor : s.decoding = true → s.cur.bit ≠ 0 → s.cur.rem ≠ 0
  /-- The zlib header is byte-aligned (R79, R100). -/
  aligned : s.st = .zlibHeader → s.cur.bit = 0
  /-- LENS has 320 entries (R34). -/
  lengthArray : s.dyn.lens.length = lensCap
  /-- HLIT, HDIST and NL in their ranges while the lengths are read (R34, R108). -/
  lengthCounts : s.phase = .clSymbols →
    257 ≤ s.dyn.hlit.toNat ∧ s.dyn.hlit.toNat ≤ 288 ∧ 1 ≤ s.dyn.hdist.toNat ∧ s.dyn.hdist.toNat ≤ 32
      ∧ s.dyn.nl.toNat ≤ s.dyn.hlit.toNat + s.dyn.hdist.toNat
  /-- CLT is a built table of 19 symbols while the lengths are read (R33). -/
  codeTable : s.phase = .clSymbols → ∃ lens d, lens.length = clCap ∧ s.clt = build cltShape lens d
  /-- LL and DT are built tables in a block body (R33, R97). -/
  bodyTables : s.st = .blockBody →
    (∃ lens d, lens.length ≤ llCap ∧ s.ll = build llShape lens d)
      ∧ ∃ lens d, lens.length ≤ distCap ∧ s.dt = build dtShape lens d
  /-- COPY_LEN is 3 to 258 between a length symbol and its distance symbol (R120). -/
  matchLength : s.phase = .distSymbol → 3 ≤ s.copyLen.toNat ∧ s.copyLen.toNat ≤ 258
  /-- While BUSY = 1 the host has not read STATUS with BUSY = 0 since the START (R42 duty 3). -/
  lent : s.busy = true → s.loan ≠ none
  /-- ROW < H in the filter pass (R127). -/
  rowInside : s.st = .filter → s.row.toNat < s.lat.h.toNat

end Sys2Proof.Machine
end

