-- ==== Sys2Proof/Certificates/Slice0/Obligations.lean ====
section
/-! DEFINITION. The statements for the provers. `engineMoves s` and `hostMoves s a` say who moves next; `tickHost s` is `s` with
the delay of the host's next action counted down by one, and `popHost s` is `s` without that action: nothing else differs. A
`raise E` in state `u` is `enterError E u`; the cursor of `u` does not matter there, since error entry leaves it unspecified. -/

section

open Sys2Proof Sys2Proof.Machine

/-! ### Encoding -/

/-- Every well-formed instruction is what its own selector decodes to, in its own format (R56 to R72). -/
def Obligations.DecodeOfEncode : Prop :=
  ∀ i : Instr, WellFormed i = true → decode (formatOf i) (encode i) = .ok i

/-- A decoded selector is of the format it was decoded in, is well-formed, and encodes back to the same bits. -/
def Obligations.EncodeOfDecode : Prop :=
  ∀ (f : Format) (w : BitVec 40) (i : Instr), decode f w = .ok i →
    formatOf i = f ∧ encode i = w ∧ WellFormed i = true

/-- Words written out from R56, R57, R61, R62, R64, R16 and R15 decode to what they stand for. -/
def Obligations.WordsDecodeAsWritten : Prop :=
  decode .zlibCmf 0b01111000#40 = .ok (.zhdr 7#4)
    ∧ decode .zlibCmf 0b01110111#40 = .ok (.zhdrBadCm0To7 7#4 7#3)
    ∧ decode .blockHeader 0b001#40 = .ok (.blockStored 1#1)
    ∧ decode .blockHeader 0b100#40 = .ok (.blockDynamic 0#1)
    ∧ decode .blockHeader 0b111#40 = .ok (.blockReserved 1#1)
    ∧ decode .clSymbol 0b01000#40 = .ok (.cl 8#4)
    ∧ decode .clSymbol 0b10010#40 = .ok .cl18
    ∧ decode .litlenSymbol 0b010101010#40 = .ok (.lit 0xAA#8)
    ∧ decode .litlenSymbol 0b100000000#40 = .ok .eob
    ∧ decode .litlenSymbol 0b100011101#40 = .ok .len285
    ∧ decode .distSymbol 0b11101#40 = .ok .dist29
    ∧ decode .distSymbol 0b11111#40 = .ok (.distInvalid30To31 1#1)
    ∧ decode .filterType 0b00000100#40 = .ok .ftPaeth
    ∧ decode .filterType 0b11111111#40 = .ok (.ftInvalid80ToFF 127#7)
    ∧ decode .ctrlWrite 0b101#40 = .ok (.start 1#1 0#29)
    ∧ decode .ctrlWrite 0b011#40 = .ok (.softReset 1#1 0#1 0#29)
    ∧ decode .regRead 0x04#40 = .ok .readStatus
    ∧ decode .regWrite 0xDEADBEEF0C#40 = .ok (.writeIhdrHeight 0xDEADBEEF#32)
    ∧ decode .pngChunkType 0x49444154#40 = .ok .chunkIdat
    ∧ decode .pngChunkType 0x49454E44#40 = .ok (.chunkOther 0x49454E44#32)

/-- Which selectors have an instruction: every one of the format's width, but for the code-length symbols 19 to 31 and the
literal/length symbols 288 to 511, which no table can place (log 25, from R61 and R62), and the register offsets that have no row
(R144, R145). That an offset which is no multiple of 4 has none is log 27, from R46. -/
def Obligations.DecodeTotal : Prop :=
  ∀ (f : Format) (w : BitVec 40), (∃ i, decode f w = .ok i) ↔
    w.toNat < 2 ^ f.width ∧ (f = .clSymbol → w.toNat < 19) ∧ (f = .litlenSymbol → w.toNat < 288)
      ∧ (f = .regRead → w.toNat = 0x04)
      ∧ (f = .regWrite → w.toNat % 256 ∈ [0x08, 0x0C, 0x10, 0x14, 0x18, 0x1C, 0x20, 0x24])

/-! ### A step -/

/-- A step runs the fetched instruction: in each of the ten formats, when the next turn fetches a selector that decodes to
`i`, the step is `exec i` in the state after the fetch (R71, R12). The host's read of a chunk's first 8 bytes is under its duty 3
(log 11). -/
def Obligations.StepRunsFetchedElement : Prop :=
  ∀ (s : State) (i : Instr),
    (engineMoves s → s.st = .zlibHeader → ∀ b t, readByte (tickHost s) = .ok b t →
      decode .zlibCmf (BitVec.ofNat 40 b.toNat) = .ok i → step s = exec i t)
    ∧ (engineMoves s → s.st = .blockHeader → ∀ v t, readBlockHeader (tickHost s) = .ok v t →
      decode .blockHeader (BitVec.ofNat 40 v) = .ok i → step s = exec i t)
    ∧ (s.phase = .clSymbols → s.dyn.nl.toNat ≠ s.dyn.hlit.toNat + s.dyn.hdist.toNat →
      ∀ v t, huffDecode s.clt s = .ok v t →
      decode .clSymbol (BitVec.ofNat 40 v) = .ok i → step s = exec i t)
    ∧ (engineMoves s → s.st = .blockBody → ∀ v t, huffDecode s.ll (tickHost s) = .ok v t →
      decode .litlenSymbol (BitVec.ofNat 40 v) = .ok i → step s = exec i t)
    ∧ (s.phase = .distSymbol → ∀ v t, huffDecode s.dt s = .ok v t →
      decode .distSymbol (BitVec.ofNat 40 v) = .ok i → step s = exec i t)
    ∧ (engineMoves s → s.st = .filter → filterTypeAddress s < memBytes →
      decode .filterType (BitVec.ofNat 40 (s.mem.read (filterTypeAddress s)).toNat) = .ok i →
      step s = exec i (tickHost s))
    ∧ (∀ v, hostWrites s 0x00#8 v → decode .ctrlWrite (v.setWidth 40) = .ok i → step s = exec i (popHost s))
    ∧ (∀ offset v, hostWrites s offset v →
      offset ∈ [0x08#8, 0x0C#8, 0x10#8, 0x14#8, 0x18#8, 0x1C#8, 0x20#8, 0x24#8] →
      decode .regWrite (v ++ offset) = .ok i → step s = exec i (popHost s))
    ∧ (hostReads s 0x04#8 → decode .regRead 0x04#40 = .ok i → step s = exec i (popHost s))
    ∧ (hostMoves s .walkChunk → s.job.phase = .walking → ∀ len tag : Word,
      s.mem.readBe32 (s.job.inputBase.toNat + s.job.pos) = len →
      s.mem.readBe32 (s.job.inputBase.toNat + s.job.pos + 4) = tag →
      s.job.pos + 12 + len.toNat ≤ s.job.inputLen → s.job.inputBase.toNat + s.job.inputLen ≤ memBytes →
      mayRead s ⟨s.job.inputBase.toNat + s.job.pos, 8⟩ = true →
      decode .pngChunkType (BitVec.ofNat 40 tag.toNat) = .ok i →
      step s = exec i { s with job := { s.job with chunkLen := len } })

/-- A raise while a selector is fetched is the operation's own: the step enters ERROR (R147, R148). -/
def Obligations.FailedFetchEntersError : Prop :=
  ∀ (s : State) (e : ErrorCode) (t : State),
    (engineMoves s → s.st = .zlibHeader → readByte (tickHost s) = .raise e t → step s = .next (enterError e t))
    ∧ (engineMoves s → s.st = .blockHeader → readBlockHeader (tickHost s) = .raise e t → step s = .next (enterError e t))
    ∧ (s.phase = .clSymbols → s.dyn.nl.toNat ≠ s.dyn.hlit.toNat + s.dyn.hdist.toNat →
      huffDecode s.clt s = .raise e t → step s = .next (enterError e t))
    ∧ (engineMoves s → s.st = .blockBody → huffDecode s.ll (tickHost s) = .raise e t → step s = .next (enterError e t))
    ∧ (s.phase = .distSymbol → huffDecode s.dt s = .raise e t → step s = .next (enterError e t))

/-! ### The whole machine -/

/-- The invariant holds right after reset. -/
def Obligations.InvHoldsAtReset : Prop := Inv State.reset

/-- Every step keeps the invariant. -/
def Obligations.StepKeepsInv : Prop :=
  ∀ s t : State, Inv s → step s = .next t → Inv t

/-- A decode that has passed its configuration check never stops: every step of the engine answers a next state (R162: "The
engine therefore never hangs"). -/
def Obligations.EngineNeverStops : Prop :=
  ∀ s : State, Inv s → s.decoding = true → (s.phase = .boundary → engineMoves s) → ∃ t, step s = .next t

/-- The engine state changes only as the table of R98 says, each row with its event. "LEN bytes copied" is OUT_COUNT advanced by
the LEN of the header at the cursor. -/
def Obligations.OnlyListedTransitions : Prop :=
  ∀ s t : State, Inv s → step s = .next t →
    t.st = s.st
    ∨ (t.st = .configCheck ∧ s.busy = false
        ∧ ∃ v, hostWrites s 0x00#8 v ∧ v.getLsbD 0 = true ∧ v.getLsbD 1 = false)
    ∨ (t.st = .idle ∧ ∃ v, hostWrites s 0x00#8 v ∧ v.getLsbD 1 = true)
    ∨ (t.st = .error ∧ s.busy = true ∧ t.errState = s.st ∧ t.errCode ≠ .noError)
    ∨ (s.st = .configCheck ∧ t.st = .zlibHeader
        ∧ ∃ u, configCheckWith Config.maxWorkBytes (tickHost s) = .ok () u)
    ∨ (s.st = .zlibHeader ∧ t.st = .blockHeader
        ∧ ∃ cmf flg rest, restBytes s = cmf :: flg :: rest ∧ cmf.toNat % 16 = 8)
    ∨ (s.st = .blockHeader ∧ t.btype = 0#2 ∧ t.st = .storedBlock)
    ∨ (s.st = .blockHeader ∧ t.btype = 1#2 ∧ t.st = .fixedTables)
    ∨ (s.st = .blockHeader ∧ t.btype = 2#2 ∧ t.st = .dynamicTables)
    ∨ (s.st = .storedBlock ∧ t.st = (if s.bfinal = 1#1 then .trailer else .blockHeader)
        ∧ ∃ b0 b1 n0 n1 rest, alignedBytes s = b0 :: b1 :: n0 :: n1 :: rest
          ∧ t.outCount = s.outCount + BitVec.ofNat 32 (b0.toNat + 256 * b1.toNat))
    ∨ (s.st = .blockBody ∧ t.st = (if s.bfinal = 1#1 then .trailer else .blockHeader)
        ∧ ∃ u, huffDecode s.ll (tickHost s) = .ok 256 u)
    ∨ (s.st = .fixedTables ∧ t.st = .blockBody
        ∧ ∃ d e, t.ll = build llShape fixedLitlenLengths d ∧ t.dt = build dtShape fixedDistLengths e)
    ∨ (s.st = .dynamicTables ∧ t.st = .blockBody
        ∧ s.phase = .clSymbols ∧ s.dyn.nl.toNat = s.dyn.hlit.toNat + s.dyn.hdist.toNat
        ∧ ∃ d e, t.ll = build llShape (lensSlice s 0 s.dyn.hlit.toNat) d
          ∧ t.dt = build dtShape (lensSlice s s.dyn.hlit.toNat s.dyn.hdist.toNat) e)
    ∨ (s.st = .trailer ∧ t.st = .sizeCheck ∧ 4 ≤ (alignedBytes s).length)
    ∨ (s.st = .sizeCheck ∧ s.outCount = s.sizes.workSize ∧ t.st = .filter ∧ t.row = 0)
    ∨ (s.st = .filter ∧ t.st = .done ∧ t.row = s.lat.h)

/-- A step of the engine changes no byte outside the work buffer and the output buffer of the decode (R40, R53), and no
configuration register and no IRQ_EN (R16, R25). -/
def Obligations.EngineWritesOnlyItsBuffers : Prop :=
  ∀ s t : State, Inv s → (s.phase = .boundary → engineMoves s) → step s = .next t →
    (∀ a, ¬ inWork s a → ¬ inOut s a → t.mem.read a = s.mem.read a) ∧ t.cfg = s.cfg ∧ t.irqEn = s.irqEn

/-- While BUSY = 1 no step changes a configuration register, and after CONFIG_CHECK none changes a latch or a size (R25, R29),
unless it is a soft reset. -/
def Obligations.ConfigHeldWhileBusy : Prop :=
  ∀ s t : State, Inv s → s.busy = true → step s = .next t →
    (t.cfg = s.cfg ∧ (s.decoding = true → t.lat = s.lat ∧ t.sizes = s.sizes))
    ∨ (t.st = .idle ∧ ∃ v, hostWrites s 0x00#8 v ∧ v.getLsbD 1 = true)

/-- After reset every register of the window reads 0, and the interrupt output is low (R38, R154). -/
def Obligations.ResetReadsZero : Prop :=
  State.reset.st = .idle ∧ State.reset.irqEn = false ∧ State.reset.irq = false
    ∧ ∀ offset, (hostReadRegister offset State.reset).busRdata = 0

/-! ### Bit reader -/

/-- The flat view of the stream (R81), for a cursor that stands in the segment it names. -/
def Obligations.FlatView : Prop :=
  ∀ s : State, tableReadable s → cursorInStream s →
    streamPosition s ≤ 8 * (wholeStream s).length
    ∧ (streamPosition s < 8 * (wholeStream s).length →
      ∃ c : Cursor, fetchBit s = .ok (((wholeStream s).getD (streamPosition s / 8) 0).getLsbD (streamPosition s % 8))
          { s with cur := c }
        ∧ streamPosition { s with cur := c } = streamPosition s + 1 ∧ cursorInStream { s with cur := c })
    ∧ (streamPosition s = 8 * (wholeStream s).length →
      ∃ c : Cursor, fetchBit s = .raise .truncatedInput { s with cur := c })
    ∧ streamPosition (alignToByte s) = (streamPosition s + 7) / 8 * 8
    ∧ cursorInStream (alignToByte s)
    ∧ (s.cur.bit = 0 → streamPosition s < 8 * (wholeStream s).length →
      ∃ c : Cursor, readByte s = .ok ((wholeStream s).getD (streamPosition s / 8) 0) { s with cur := c }
        ∧ streamPosition { s with cur := c } = streamPosition s + 8 ∧ cursorInStream { s with cur := c })
    ∧ (s.cur.bit = 0 → streamPosition s = 8 * (wholeStream s).length →
      ∃ c : Cursor, readByte s = .raise .truncatedInput { s with cur := c })

/-- `ensure_byte` (R75): its loop, one turn at a time. -/
def Obligations.EnsureByteLoop : Prop :=
  ∀ s : State,
    (s.cur.rem ≠ 0 → ensureByte s = .ok () s)
    ∧ (s.cur.rem = 0 → s.lat.nseg.toNat ≤ s.cur.seg.toNat + 1 → ensureByte s = .raise .truncatedInput s)
    ∧ (s.cur.rem = 0 → s.cur.seg.toNat + 1 < s.lat.nseg.toNat → tableReadable s →
      ensureByte s = ensureByte
        { s with
          cur :=
            { seg := s.cur.seg + 1
              addr := s.mem.readLe32 (s.lat.segtab.toNat + 8 * (s.cur.seg.toNat + 1))
              rem := s.mem.readLe32 (s.lat.segtab.toNat + 8 * (s.cur.seg.toNat + 1) + 4)
              bit := s.cur.bit } })

/-- `fetch_bit` (R76) after `ensure_byte`: the bit at the cursor, and the cursor one bit on. -/
def Obligations.FetchBitAtCursor : Prop :=
  ∀ s t : State,
    (ensureByte s = .ok () t → t.cur.bit ≠ 7 →
      fetchBit s = .ok ((t.mem.read t.cur.addr.toNat).getLsbD t.cur.bit.toNat)
        { t with cur := ⟨t.cur.seg, t.cur.addr, t.cur.rem, t.cur.bit + 1⟩ })
    ∧ (ensureByte s = .ok () t → t.cur.bit = 7 →
      fetchBit s = .ok ((t.mem.read t.cur.addr.toNat).getLsbD 7)
        { t with cur := ⟨t.cur.seg, t.cur.addr + 1, t.cur.rem - 1, 0⟩ })
    ∧ (∀ e, ensureByte s = .raise e t → fetchBit s = .raise e t)

/-- `read_bits(n)` (R77): the first bit consumed is bit 0 of the result; with fewer than `n` bits left it raises. -/
def Obligations.ReadBitsValue : Prop :=
  ∀ (n : Nat) (s : State), tableReadable s →
    (n ≤ (restBits s).length → ∃ (v : Nat) (c : Cursor), readBits n s = .ok v { s with cur := c } ∧ v < 2 ^ n
      ∧ (∀ k, k < n → v.testBit k = (restBits s).getD k false)
      ∧ restBits { s with cur := c } = (restBits s).drop n)
    ∧ ((restBits s).length < n → ∃ c : Cursor, readBits n s = .raise .truncatedInput { s with cur := c })

/-- `align_to_byte` (R78): the rest of a begun byte is passed over; with no bit consumed it does nothing. -/
def Obligations.AlignToByte : Prop :=
  ∀ s : State,
    (s.cur.bit = 0 → alignToByte s = s)
    ∧ (s.cur.bit ≠ 0 → alignToByte s = { s with cur := ⟨s.cur.seg, s.cur.addr + 1, s.cur.rem - 1, 0⟩ })

/-- `read_byte` (R79): the byte at the cursor; with CUR_BIT = 0 it is `read_bits(8)`. -/
def Obligations.ReadByteIsReadBits8 : Prop :=
  ∀ s : State, s.cur.bit = 0 →
    (∀ t, ensureByte s = .ok () t → readByte s = .ok (t.mem.read t.cur.addr.toNat)
      { t with cur := ⟨t.cur.seg, t.cur.addr + 1, t.cur.rem - 1, t.cur.bit⟩ })
    ∧ (∀ e t, ensureByte s = .raise e t → readByte s = .raise e t)
    ∧ readBits 8 s = (readByte s).bind fun b t => .ok b.toNat t

/-! ### Huffman tables -/

/-- `build` (R92) for the three tables of R33: the fields of a built table, whatever numbers its unspecified entries take. The
entries of `sym[]` that are placed list the present symbols sorted by (length, index). -/
def Obligations.BuildSortsSymbols : Prop :=
  ∀ k ∈ [llShape, dtShape, cltShape], ∀ (lens : List Nat) (d : Nat) (placed : List Nat),
    lens.length ≤ k.cap → (∀ l ∈ lens, l ≤ k.longest) →
    placed = ((build k lens d).sym.toList.take (lens.filter (· ≠ 0)).length).map BitVec.toNat →
    (build k lens d).n.toNat = lens.length
    ∧ (∀ v, v < lens.length → ((build k lens d).len.toList.getD v 0).toNat = lens.getD v 0)
    ∧ (∀ l, l ≤ k.longest → ((build k lens d).count.toList.getD l 0).toNat = if l = 0 then 0 else lens.count l)
    ∧ (∀ l ∈ lens, l ≤ (build k lens d).max.toNat)
    ∧ ((build k lens d).max.toNat = 0 ∨ (build k lens d).max.toNat ∈ lens)
    ∧ (∀ v, v ∈ placed ↔ lens.getD v 0 ≠ 0)
    ∧ placed.Pairwise fun u v =>
        lens.getD u 0 < lens.getD v 0 ∨ (lens.getD u 0 = lens.getD v 0 ∧ u < v)

/-- The law of canonical decoding (R94), for the three tables of R33: for lengths that do not over-subscribe the code space, a
symbol is decoded exactly when the next bits are its canonical code, and the stream is corrupt exactly when they begin with no
code. -/
def Obligations.CanonicalDecode : Prop :=
  ∀ k ∈ [llShape, dtShape, cltShape], ∀ (lens : List Nat) (d : Nat) (s : State), lens.length ≤ k.cap →
    (∀ l ∈ lens, l ≤ k.longest) → kraft k.longest lens → tableReadable s →
    (∀ v, (∃ c : Cursor, huffDecode (build k lens d) s = .ok v { s with cur := c }
          ∧ restBits { s with cur := c } = (restBits s).drop (lens.getD v 0))
        ↔ lens.getD v 0 ≠ 0 ∧ codeBits (canonicalCode lens v) (lens.getD v 0) <+: restBits s)
    ∧ ((∃ c : Cursor, huffDecode (build k lens d) s = .raise .corruptHuffmanStream { s with cur := c })
        ↔ (build k lens d).max.toNat ≤ (restBits s).length
          ∧ ∀ v, lens.getD v 0 ≠ 0 → ¬ codeBits (canonicalCode lens v) (lens.getD v 0) <+: restBits s)

/-- A table with one present symbol, of length 1 (R96): bit 0 is that symbol, bit 1 is corrupt. -/
def Obligations.SingleCode : Prop :=
  ∀ k ∈ [llShape, dtShape, cltShape], ∀ (lens : List Nat) (d v : Nat) (b : Bool) (bits : List Bool) (s : State),
    lens.length ≤ k.cap → lens.getD v 0 = 1 → (∀ u, u ≠ v → lens.getD u 0 = 0) → tableReadable s →
    restBits s = b :: bits →
    (b = false → ∃ c : Cursor, huffDecode (build k lens d) s = .ok v { s with cur := c }
      ∧ restBits { s with cur := c } = bits)
    ∧ (b = true → ∃ c : Cursor, huffDecode (build k lens d) s = .raise .corruptHuffmanStream { s with cur := c })

/-- The fixed codes (R70), and the counts of the fixed tables. -/
def Obligations.FixedCodes : Prop :=
  (∀ v, v < 144 → fixedLitlenLengths.getD v 0 = 8 ∧ canonicalCode fixedLitlenLengths v = 0b00110000 + v)
    ∧ (∀ v, v < 112 → fixedLitlenLengths.getD (144 + v) 0 = 9
        ∧ canonicalCode fixedLitlenLengths (144 + v) = 0b110010000 + v)
    ∧ (∀ v, v < 24 → fixedLitlenLengths.getD (256 + v) 0 = 7 ∧ canonicalCode fixedLitlenLengths (256 + v) = v)
    ∧ (∀ v, v < 8 → fixedLitlenLengths.getD (280 + v) 0 = 8
        ∧ canonicalCode fixedLitlenLengths (280 + v) = 0b11000000 + v)
    ∧ (∀ v, v < 32 → fixedDistLengths.getD v 0 = 5 ∧ canonicalCode fixedDistLengths v = v)
    ∧ fixedLitlenLengths.length = 288 ∧ fixedDistLengths.length = 32
    ∧ ∀ d : Nat, (build llShape fixedLitlenLengths d).count.toList.map BitVec.toNat
          = [0, 0, 0, 0, 0, 0, 0, 24, 152, 112, 0, 0, 0, 0, 0, 0]
        ∧ (build llShape fixedLitlenLengths d).max = 9
        ∧ (build dtShape fixedDistLengths d).count.toList.map BitVec.toNat
          = [0, 0, 0, 0, 0, 32, 0, 0, 0, 0, 0, 0, 0, 0, 0, 0]
        ∧ (build dtShape fixedDistLengths d).max = 5

/-! ### zlib header and block headers -/

/-- Operation ZLIB_HEADER (R100) as one step, with its errors in their order. -/
def Obligations.ZlibHeaderOperation : Prop :=
  ∀ s : State, engineMoves s → s.st = .zlibHeader → s.cur.bit = 0 → tableReadable s →
    (restBytes s = [] → step s = .next (enterError .truncatedInput (tickHost s)))
    ∧ (∀ cmf rest, restBytes s = cmf :: rest → cmf.toNat % 16 ≠ 8 →
      step s = .next (enterError .unsupportedCompressionMethod (tickHost s)))
    ∧ (∀ cmf, restBytes s = [cmf] → cmf.toNat % 16 = 8 →
      step s = .next (enterError .truncatedInput (tickHost s)))
    ∧ (∀ cmf flg rest, restBytes s = cmf :: flg :: rest → cmf.toNat % 16 = 8 →
      ∃ c : Cursor, step s = .next { tickHost s with st := .blockHeader, cur := c }
        ∧ c.bit = 0 ∧ restBytes { s with cur := c } = rest)

/-- Operation BLOCK_HEADER (R101) as one step: BFINAL is the first bit, BTYPE the next two, low bit first. With one or two bits
left BFINAL is written and BTYPE cannot be read. -/
def Obligations.BlockHeaderOperation : Prop :=
  ∀ s : State, engineMoves s → s.st = .blockHeader → tableReadable s →
    (restBits s = [] → step s = .next (enterError .truncatedInput (tickHost s)))
    ∧ (∀ f rest, restBits s = f :: rest → rest.length < 2 →
      step s = .next (enterError .truncatedInput { tickHost s with bfinal := BitVec.ofBool f }))
    ∧ (∀ f lo hi rest, restBits s = f :: lo :: hi :: rest →
      ∃ c : Cursor, restBits { s with cur := c } = rest
        ∧ ∀ u : State, u = { tickHost s with
            cur := c
            bfinal := BitVec.ofBool f
            btype := BitVec.ofBool hi ++ BitVec.ofBool lo
            blockCount := s.blockCount + 1 } →
          (hi = false → lo = false → step s = .next { u with st := .storedBlock })
          ∧ (hi = false → lo = true → step s = .next { u with st := .fixedTables })
          ∧ (hi = true → lo = false → step s = .next { u with st := .dynamicTables })
          ∧ (hi = true → lo = true → step s = .next (enterError .reservedBlockType u)))

/-- The zlib header and block header elements: where each completes, and with what state (R100, R101). Elements of a method
other than 8, and the reserved block type, complete with the error entry that is their effect. -/
def Obligations.HeaderElements : Prop :=
  (∀ (cinfo : BitVec 4) (s : State) (flg : Byte) (rest : List Byte), tableReadable s → restBytes s = flg :: rest →
      ∃ c : Cursor, exec (.zhdr cinfo) s = .next { s with st := .blockHeader, phase := .boundary, cur := c }
        ∧ c.bit = s.cur.bit ∧ restBytes { s with cur := c } = rest)
    ∧ (∀ (cinfo : BitVec 4) (s : State), tableReadable s → restBytes s = [] →
      exec (.zhdr cinfo) s = .next (enterError .truncatedInput s))
    ∧ (∀ (cinfo : BitVec 4) (a : BitVec 3) (b : BitVec 1) (c : BitVec 2) (s : State),
      exec (.zhdrBadCm0To7 cinfo a) s = .next (enterError .unsupportedCompressionMethod s)
      ∧ exec (.zhdrBadCm9 cinfo) s = .next (enterError .unsupportedCompressionMethod s)
      ∧ exec (.zhdrBadCm10To11 cinfo b) s = .next (enterError .unsupportedCompressionMethod s)
      ∧ exec (.zhdrBadCm12To15 cinfo c) s = .next (enterError .unsupportedCompressionMethod s))
    ∧ (∀ (bfinal : BitVec 1) (s : State),
      exec (.blockStored bfinal) s = .next { s with
        st := .storedBlock, phase := .boundary, bfinal := bfinal, btype := 0#2, blockCount := s.blockCount + 1 }
      ∧ exec (.blockFixed bfinal) s = .next { s with
        st := .fixedTables, phase := .boundary, bfinal := bfinal, btype := 1#2, blockCount := s.blockCount + 1 }
      ∧ exec (.blockDynamic bfinal) s = .next { s with
        st := .dynamicTables, phase := .boundary, bfinal := bfinal, btype := 2#2, blockCount := s.blockCount + 1 }
      ∧ exec (.blockReserved bfinal) s = .next (enterError .reservedBlockType
        { s with bfinal := bfinal, btype := 3#2, blockCount := s.blockCount + 1 }))

/-! ### Stored blocks -/

/-- Operation STORED_BLOCK (R103, R104) as one step: LEN bytes after the aligned four-byte header are appended to the work
buffer, whatever NLEN holds; the errors come in the order of R148. The bytes stored are those at `WBASE + OUT_COUNT` on. -/
def Obligations.StoredBlockOperation : Prop :=
  ∀ s : State, engineMoves s → s.st = .storedBlock → tableReadable s → s.cur.sound → streamApart s →
    s.outCount.toNat ≤ s.sizes.workSize.toNat → s.lat.wbase.toNat + s.sizes.workSize.toNat ≤ memBytes →
    ((alignedBytes s).length < 4 → step s = .next (enterError .truncatedInput (tickHost s)))
    ∧ ∀ (b0 b1 n0 n1 : Byte) (data : List Byte) (len : Nat),
      alignedBytes s = b0 :: b1 :: n0 :: n1 :: data → len = b0.toNat + 256 * b1.toNat →
      (len ≤ data.length → s.outCount.toNat + len ≤ s.sizes.workSize.toNat →
        ∃ (c : Cursor) (m : Memory),
          step s = .next { tickHost s with
            st := if s.bfinal = 1#1 then .trailer else .blockHeader
            cur := c
            mem := m
            storedRem := 0
            outCount := s.outCount + BitVec.ofNat 32 len }
          ∧ c.bit = 0 ∧ restBytes { s with cur := c } = data.drop len
          ∧ (∀ k, k < len → m.read (s.lat.wbase.toNat + s.outCount.toNat + k) = data.getD k 0)
          ∧ ∀ a, (a < s.lat.wbase.toNat + s.outCount.toNat ∨ s.lat.wbase.toNat + s.outCount.toNat + len ≤ a) →
              m.read a = s.mem.read a)
      ∧ (data.length < len → s.outCount.toNat + data.length ≤ s.sizes.workSize.toNat →
        ∃ u : State, step s = .next (enterError .truncatedInput u)
          ∧ u = { tickHost s with cur := u.cur, mem := u.mem, storedRem := u.storedRem, outCount := u.outCount })
      ∧ (s.sizes.workSize.toNat < s.outCount.toNat + len → s.sizes.workSize.toNat < s.outCount.toNat + data.length →
        ∃ u : State, step s = .next (enterError .outputSizeMismatch u)
          ∧ u = { tickHost s with cur := u.cur, mem := u.mem, storedRem := u.storedRem, outCount := u.outCount })

/-! ### Tables of a block -/

/-- Operation FIXED_TABLES (R105) as one step: the tables of the fixed lengths, written out, whatever free values the entries of
`sym[]` that `build` does not place take (R33). -/
def Obligations.FixedTablesOperation : Prop :=
  ∀ s : State, engineMoves s → s.st = .fixedTables →
    ∃ d e n : Nat, step s = .next { tickHost s with
      st := .blockBody
      ll := build llShape (List.replicate 144 8 ++ List.replicate 112 9 ++ List.replicate 24 7 ++ List.replicate 8 8) d
      dt := build dtShape (List.replicate 32 5) e
      draws := n }

/-- The first part of operation DYNAMIC_TABLES (R106, R107): HLIT, HDIST and HCLEN from 5, 5 and 4 bits, then HCLEN lengths of
3 bits for the symbols in the order PERM; a symbol whose length is not sent has length 0. -/
def Obligations.DynamicHeaderOperation : Prop :=
  ∀ (s : State) (perm : List Nat) (hclen : Nat), engineMoves s → s.st = .dynamicTables → tableReadable s →
    perm = [16, 17, 18, 0, 8, 7, 9, 6, 10, 5, 11, 4, 12, 3, 13, 2, 14, 1, 15] →
    hclen = bitsValue (((restBits s).drop 10).take 4) + 4 →
    (14 + 3 * hclen ≤ (restBits s).length →
      ∃ (c : Cursor) (cl : List Nat) (d n : Nat),
        step s = .next { tickHost s with
          phase := .clSymbols
          cur := c
          clt := build cltShape cl d
          draws := n
          dyn :=
            { hlit := BitVec.ofNat 9 (bitsValue ((restBits s).take 5) + 257)
              hdist := BitVec.ofNat 6 (bitsValue (((restBits s).drop 5).take 5) + 1)
              hclen := BitVec.ofNat 5 hclen
              lens := s.dyn.lens
              nl := 0 } }
        ∧ restBits { s with cur := c } = (restBits s).drop (14 + 3 * hclen)
        ∧ cl.length = 19
        ∧ ∀ k, k < 19 → cl.getD (perm.getD k 0) 0 =
            if k < hclen then bitsValue (((restBits s).drop (14 + 3 * k)).take 3) else 0)
    ∧ ((restBits s).length < 14 ∨ (restBits s).length < 14 + 3 * hclen →
      ∃ d : DynScratch, step s = .next (enterError .truncatedInput { tickHost s with dyn := d }))

/-- Code-length symbols 0 to 15 (R109): one more entry of LENS. -/
def Obligations.CodeLengthElement : Prop :=
  ∀ (len : BitVec 4) (s : State),
    exec (.cl len) s = .next { s with dyn := { s.dyn with
      lens := s.dyn.lens.set s.dyn.nl.toNat len
      nl := s.dyn.nl + 1 } }

/-- Code-length symbol 16 (R110): the last entry 3 to 6 times more, by 2 extra bits. -/
def Obligations.RepeatPreviousElement : Prop :=
  ∀ s : State, s.dyn.lens.length = 320 → s.dyn.hlit.toNat + s.dyn.hdist.toNat ≤ 320 → tableReadable s →
    (s.dyn.nl = 0 → exec .cl16 s = .next (enterError .invalidCodeLengths s))
    ∧ (s.dyn.nl ≠ 0 → (restBits s).length < 2 → exec .cl16 s = .next (enterError .truncatedInput s))
    ∧ ∀ rep, 2 ≤ (restBits s).length → rep = 3 + bitsValue ((restBits s).take 2) → s.dyn.nl ≠ 0 →
      (s.dyn.hlit.toNat + s.dyn.hdist.toNat < s.dyn.nl.toNat + rep →
        exec .cl16 s = .next (enterError .invalidCodeLengths s))
      ∧ (s.dyn.nl.toNat + rep ≤ s.dyn.hlit.toNat + s.dyn.hdist.toNat →
        ∃ (c : Cursor) (lens : List (BitVec 4)),
          exec .cl16 s = .next { s with
            cur := c
            dyn := { s.dyn with lens := lens, nl := BitVec.ofNat 9 (s.dyn.nl.toNat + rep) } }
          ∧ restBits { s with cur := c } = (restBits s).drop 2
          ∧ lens.length = 320
          ∧ ∀ j, j < 320 → lens.getD j 0 =
              if s.dyn.nl.toNat ≤ j ∧ j < s.dyn.nl.toNat + rep then s.dyn.lens.getD (s.dyn.nl.toNat - 1) 0
              else s.dyn.lens.getD j 0)

/-- Code-length symbols 17 and 18 (R111, R112): length 0, 3 to 10 times by 3 extra bits, 11 to 138 times by 7. -/
def Obligations.RepeatZeroElements : Prop :=
  ∀ (i : Instr) (base extra : Nat) (s : State),
    ((i = .cl17 ∧ base = 3 ∧ extra = 3) ∨ (i = .cl18 ∧ base = 11 ∧ extra = 7)) →
    s.dyn.lens.length = 320 → s.dyn.hlit.toNat + s.dyn.hdist.toNat ≤ 320 → tableReadable s →
    ((restBits s).length < extra → exec i s = .next (enterError .truncatedInput s))
    ∧ ∀ rep, extra ≤ (restBits s).length → rep = base + bitsValue ((restBits s).take extra) →
      (s.dyn.hlit.toNat + s.dyn.hdist.toNat < s.dyn.nl.toNat + rep →
        exec i s = .next (enterError .invalidCodeLengths s))
      ∧ (s.dyn.nl.toNat + rep ≤ s.dyn.hlit.toNat + s.dyn.hdist.toNat →
        ∃ (c : Cursor) (lens : List (BitVec 4)),
          exec i s = .next { s with
            cur := c
            dyn := { s.dyn with lens := lens, nl := BitVec.ofNat 9 (s.dyn.nl.toNat + rep) } }
          ∧ restBits { s with cur := c } = (restBits s).drop extra
          ∧ lens.length = 320
          ∧ ∀ j, j < 320 → lens.getD j 0 =
              if s.dyn.nl.toNat ≤ j ∧ j < s.dyn.nl.toNat + rep then 0 else s.dyn.lens.getD j 0)

/-- The last part of operation DYNAMIC_TABLES (R113): the lengths are split at HLIT, and the body follows. -/
def Obligations.DynamicTablesSplit : Prop :=
  ∀ s : State, s.phase = .clSymbols → s.dyn.nl.toNat = s.dyn.hlit.toNat + s.dyn.hdist.toNat →
    ∃ d e n : Nat, step s = .next { s with
      st := .blockBody
      phase := .boundary
      ll := build llShape ((s.dyn.lens.take s.dyn.hlit.toNat).map BitVec.toNat) d
      dt := build dtShape (((s.dyn.lens.drop s.dyn.hlit.toNat).take s.dyn.hdist.toNat).map BitVec.toNat) e
      draws := n }

/-! ### Trailer and size check -/

/-- Operation TRAILER (R114) as one step: after the alignment four bytes are read, whatever they hold. -/
def Obligations.TrailerOperation : Prop :=
  ∀ s : State, engineMoves s → s.st = .trailer → tableReadable s → s.cur.sound →
    ((alignedBytes s).length < 4 → step s = .next (enterError .truncatedInput (tickHost s)))
    ∧ (4 ≤ (alignedBytes s).length →
      ∃ c : Cursor, step s = .next { tickHost s with st := .sizeCheck, cur := c }
        ∧ c.bit = 0 ∧ restBytes { s with cur := c } = (alignedBytes s).drop 4)

/-- Operation SIZE_CHECK (R115) as one step. -/
def Obligations.SizeCheckOperation : Prop :=
  ∀ s : State, engineMoves s → s.st = .sizeCheck →
    (s.outCount ≠ s.sizes.workSize → step s = .next (enterError .outputSizeMismatch (tickHost s)))
    ∧ (s.outCount = s.sizes.workSize → step s = .next { tickHost s with st := .filter, row := 0 })

/-! ### Block body -/

/-- A literal (R118, R117): one byte at `WBASE + OUT_COUNT`, every other byte as before; past WORK_SIZE nothing is written. -/
def Obligations.LiteralElement : Prop :=
  ∀ (b : BitVec 8) (s : State),
    (s.outCount.toNat < s.sizes.workSize.toNat → s.lat.wbase.toNat + s.sizes.workSize.toNat ≤ memBytes →
      ∃ m : Memory, exec (.lit b) s = .next { s with mem := m, outCount := s.outCount + 1 }
        ∧ m.read (s.lat.wbase.toNat + s.outCount.toNat) = b
        ∧ (∀ a, a ≠ s.lat.wbase.toNat + s.outCount.toNat → m.read a = s.mem.read a)
        ∧ (s.mem.wf → m.wf))
    ∧ (s.outCount = s.sizes.workSize → exec (.lit b) s = .next (enterError .outputSizeMismatch s))

/-- End of block (R119, R102): TRAILER after the final block, else the next block header; nothing else changes. -/
def Obligations.EndOfBlockElement : Prop :=
  ∀ s : State,
    (s.bfinal = 1#1 → exec .eob s = .next { s with st := .trailer, phase := .boundary })
    ∧ (s.bfinal = 0#1 → exec .eob s = .next { s with st := .blockHeader, phase := .boundary })

/-- Every length symbol (R67, R120): COPY_LEN is the row's base plus its extra bits, and the distance symbol is next. -/
def Obligations.LengthElements : Prop :=
  ∀ r ∈ lengthRows, ∀ s : State, tableReadable s →
    ((restBits s).length < r.extra → exec r.instr s = .next (enterError .truncatedInput s))
    ∧ (r.extra ≤ (restBits s).length →
      ∃ (c : Cursor) (len : BitVec 9),
        exec r.instr s = .next { s with copyLen := len, phase := .distSymbol, cur := c }
        ∧ len.toNat = r.base + bitsValue ((restBits s).take r.extra) ∧ 3 ≤ len.toNat ∧ len.toNat ≤ 258
        ∧ restBits { s with cur := c } = (restBits s).drop r.extra)

/-- Every distance symbol with a legal distance (R68, R120, R122, R123): the bytes at `WBASE + OUT_COUNT` on become those
`COPY_DIST` before them, in increasing order, which is the periodic run; every other byte of memory is as before. -/
def Obligations.DistanceElementsCopy : Prop :=
  ∀ r ∈ distanceRows, ∀ (s : State) (dist : Nat), tableReadable s → r.extra ≤ (restBits s).length →
    dist = r.base + bitsValue ((restBits s).take r.extra) → dist ≤ s.outCount.toNat →
    s.outCount.toNat + s.copyLen.toNat ≤ s.sizes.workSize.toNat →
    s.lat.wbase.toNat + s.sizes.workSize.toNat ≤ memBytes →
    ∃ (c : Cursor) (m : Memory),
      exec r.instr s = .next { s with
        cur := c
        copyDist := BitVec.ofNat 16 dist
        mem := m
        outCount := BitVec.ofNat 32 (s.outCount.toNat + s.copyLen.toNat)
        phase := .boundary }
      ∧ restBits { s with cur := c } = (restBits s).drop r.extra
      ∧ 1 ≤ dist ∧ dist ≤ 32768
      ∧ (∀ k, k < s.copyLen.toNat →
          m.read (s.lat.wbase.toNat + s.outCount.toNat + k)
            = m.read (s.lat.wbase.toNat + s.outCount.toNat + k - dist)
          ∧ m.read (s.lat.wbase.toNat + s.outCount.toNat + k)
            = s.mem.read (s.lat.wbase.toNat + s.outCount.toNat - dist + k % dist))
      ∧ ∀ a, (a < s.lat.wbase.toNat + s.outCount.toNat
            ∨ s.lat.wbase.toNat + s.outCount.toNat + s.copyLen.toNat ≤ a) → m.read a = s.mem.read a

/-- A distance greater than the bytes output so far (R121), and a distance symbol whose extra bits are missing (R120). -/
def Obligations.DistanceTooFarRaises : Prop :=
  ∀ r ∈ distanceRows, ∀ s : State, tableReadable s →
    ((restBits s).length < r.extra → exec r.instr s = .next (enterError .truncatedInput s))
    ∧ ∀ dist : Nat, r.extra ≤ (restBits s).length → dist = r.base + bitsValue ((restBits s).take r.extra) →
      s.outCount.toNat < dist →
      exec r.instr s = .next (enterError .invalidDistance { s with copyDist := BitVec.ofNat 16 dist })

/-- A match that would pass WORK_SIZE raises OutputSizeMismatch; only the work buffer's free part has been written (R122). -/
def Obligations.CopyPastWorkSizeRaises : Prop :=
  ∀ r ∈ distanceRows, ∀ (s : State) (dist : Nat), tableReadable s → r.extra ≤ (restBits s).length →
    dist = r.base + bitsValue ((restBits s).take r.extra) → dist ≤ s.outCount.toNat →
    s.outCount.toNat ≤ s.sizes.workSize.toNat → s.sizes.workSize.toNat < s.outCount.toNat + s.copyLen.toNat →
    s.lat.wbase.toNat + s.sizes.workSize.toNat ≤ memBytes →
    ∃ u : State, exec r.instr s = .next (enterError .outputSizeMismatch u)
      ∧ u = { s with cur := u.cur, copyDist := BitVec.ofNat 16 dist, mem := u.mem, outCount := s.sizes.workSize }
      ∧ ∀ a, (a < s.lat.wbase.toNat + s.outCount.toNat ∨ s.lat.wbase.toNat + s.sizes.workSize.toNat ≤ a) →
          u.mem.read a = s.mem.read a

/-- The invalid symbols 286, 287 (R124) and 30, 31 (R125): the error entry, with nothing read and nothing written. -/
def Obligations.InvalidSymbolElements : Prop :=
  ∀ (low : BitVec 1) (s : State),
    exec (.llInvalid286To287 low) s = .next (enterError .invalidSymbol s)
    ∧ exec (.distInvalid30To31 low) s = .next (enterError .invalidSymbol s)

/-! ### Filter pass -/

/-- The five filter types (R128 to R135): one row of the output buffer is the reconstruction, the row is counted, the last row
ends the decode, and nothing but FT, COL, ROW, STATE and that row changes. COL after the row is the model's choice (log 15),
so the statement leaves it open. -/
def Obligations.FilterElements : Prop :=
  ∀ (i : Instr) (ft : Byte) (pred : Nat → Nat → Nat → Nat) (s : State),
    ((i = .ftNone ∧ ft = 0 ∧ pred = fun _ _ _ => 0)
      ∨ (i = .ftSub ∧ ft = 1 ∧ pred = fun a _ _ => a)
      ∨ (i = .ftUp ∧ ft = 2 ∧ pred = fun _ b _ => b)
      ∨ (i = .ftAverage ∧ ft = 3 ∧ pred = fun a b _ => (a + b) / 2)
      ∨ (i = .ftPaeth ∧ ft = 4 ∧ pred = paeth)) →
    filterReady s →
    ∃ (m : Memory) (col : Word),
      exec i s = .next { s with
        ft := ft
        col := col
        row := s.row + 1
        mem := m
        st := if s.row + 1 = s.lat.h then .done else .filter }
      ∧ rowReconstructed pred s m

/-- `paeth` (R135): the candidate nearest to `a + b - c`, ties broken in the order a, b, c. -/
def Obligations.PaethChoice : Prop :=
  ∀ (a b c : Nat) (dist : Nat → Nat), (∀ x, dist x = ((a : Int) + b - c - x).natAbs) →
    (dist a ≤ dist b ∧ dist a ≤ dist c → paeth a b c = a)
    ∧ (¬ (dist a ≤ dist b ∧ dist a ≤ dist c) → dist b ≤ dist c → paeth a b c = b)
    ∧ (¬ (dist a ≤ dist b ∧ dist a ≤ dist c) → ¬ dist b ≤ dist c → paeth a b c = c)
    ∧ (∀ x, x = a ∨ x = b ∨ x = c → dist (paeth a b c) ≤ dist x)

/-- Filter types 5 to 255 (R136, R128): the step raises UnsupportedFilterType; FT is written and no byte of the row is. -/
def Obligations.InvalidFilterElements : Prop :=
  (∀ s : State, engineMoves s → s.st = .filter → filterTypeAddress s < memBytes →
      4 < (s.mem.read (filterTypeAddress s)).toNat →
      step s = .next (enterError .unsupportedFilterType
        { tickHost s with ft := s.mem.read (filterTypeAddress s) }))
    ∧ ∀ (a : BitVec 1) (b : BitVec 3) (c : BitVec 4) (d : BitVec 5) (e : BitVec 6) (f : BitVec 7) (s : State),
      exec .ftInvalid5 s = .next (enterError .unsupportedFilterType { s with ft := 5 })
      ∧ exec (.ftInvalid6To7 a) s = .next (enterError .unsupportedFilterType { s with ft := 3#7 ++ a })
      ∧ exec (.ftInvalid08To0F b) s = .next (enterError .unsupportedFilterType { s with ft := 1#5 ++ b })
      ∧ exec (.ftInvalid10To1F c) s = .next (enterError .unsupportedFilterType { s with ft := 1#4 ++ c })
      ∧ exec (.ftInvalid20To3F d) s = .next (enterError .unsupportedFilterType { s with ft := 1#3 ++ d })
      ∧ exec (.ftInvalid40To7F e) s = .next (enterError .unsupportedFilterType { s with ft := 1#2 ++ e })
      ∧ exec (.ftInvalid80ToFF f) s = .next (enterError .unsupportedFilterType { s with ft := 1#1 ++ f })

/-! ### Host commands -/

/-- START (R139): accepted with BUSY = 0, else nothing but IRQ_EN changes (R138, R142). That an accepted START keeps the latches,
the tables and the operation counters, which R139 leaves unspecified, is the model's choice (log 24); so is the ledger of the lent
regions (log 11): where the host has not read STATUS with BUSY = 0 since the decode before, that decode's regions stay in it. -/
def Obligations.StartCommand : Prop :=
  ∀ (irqEn : BitVec 1) (reserved : BitVec 29) (s : State),
    (s.busy = false → exec (.start irqEn reserved) s = .next { s with
      st := .configCheck
      phase := .boundary
      irqEn := irqEn == 1#1
      errCode := .noError
      errState := .idle
      sizes := ⟨0, 0, 0⟩
      outCount := 0
      blockCount := 0
      loan := some (match s.loan with
        | none => ⟨[], []⟩
        | some e =>
          ⟨⟨s.lat.wbase.toNat, s.sizes.workSize.toNat⟩ :: ⟨s.lat.obase.toNat, s.sizes.outSize.toNat⟩ :: e.buffers,
            ⟨s.lat.segtab.toNat, 8 * s.lat.nseg.toNat⟩
              :: (List.range s.lat.nseg.toNat).map (segmentRegion s.mem s.lat.segtab.toNat) ++ e.input⟩) })
    ∧ (s.busy = true → exec (.start irqEn reserved) s = .next { s with irqEn := irqEn == 1#1 })

/-- SOFT_RESET (R141, R154): every register reads 0 again, in any state; no byte outside the buffers of an aborted decode
changes; the host's own state stays. That the buffers' bytes stay after a reset in DONE whose STATUS has not been read, after one in
CONFIG_CHECK, and in the buffers of an earlier decode that the ledger holds, is the model's choice (log 33). -/
def Obligations.SoftResetCommand : Prop :=
  ∀ (a b : BitVec 1) (reserved : BitVec 29) (s : State),
    ∃ t : State, exec (.softReset a b reserved) s = .next t
      ∧ t.st = .idle ∧ t.irqEn = false ∧ t.irq = false ∧ t.errCode = .noError ∧ t.errState = .idle
      ∧ (∀ offset, (hostReadRegister offset t).busRdata = 0)
      ∧ (∀ x, s.busy = false ∨ (¬ inWork s x ∧ ¬ inOut s x) → t.mem.read x = s.mem.read x)
      ∧ (s.mem.wf → t.mem.wf)
      ∧ t.job = s.job ∧ t.hostQueue = s.hostQueue ∧ t.loan = none

/-- A CTRL write without START and SOFT_RESET (R142): IRQ_EN, in every state, and nothing else. -/
def Obligations.IrqEnableCommand : Prop :=
  ∀ (irqEn : BitVec 1) (reserved : BitVec 29) (s : State),
    exec (.setIrqEn irqEn reserved) s = .next { s with irqEn := irqEn == 1#1 }

/-- The order in which a CTRL write acts (R138), as one step, whatever bits 31:3 hold. -/
def Obligations.CtrlWriteOrder : Prop :=
  ∀ (s : State) (v : Word), hostWrites s 0x00#8 v →
    (v.getLsbD 1 = true → step s = .next (resetBlock (popHost s)))
    ∧ (v.getLsbD 1 = false → v.getLsbD 0 = false → step s = .next { popHost s with irqEn := v.getLsbD 2 })
    ∧ (v.getLsbD 1 = false → v.getLsbD 0 = true → s.busy = true →
      step s = .next { popHost s with irqEn := v.getLsbD 2 })
    ∧ (v.getLsbD 1 = false → v.getLsbD 0 = true → s.busy = false →
      step s = .next (acceptStart { popHost s with irqEn := v.getLsbD 2 }))

/-- A read of STATUS (R144, R17, R151): the word, bit field by bit field, with no side effect on the block. With BUSY = 0 it gives
the lent regions back to the host (R51, R42 duty 3), which the model notes in the host's ledger `loan` (log 11). -/
def Obligations.StatusRead : Prop :=
  (∀ s : State, exec .readStatus s = .next { s with busRdata := s.statusWord, loan := if s.busy then s.loan else none })
    ∧ (∀ s : State, hostReads s 0x04#8 →
      step s = .next { popHost s with busRdata := s.statusWord, loan := if s.busy then s.loan else none })
    ∧ ∀ s : State, s.statusWord.toNat =
        (busyState s.st).toNat + 2 * (s.st == .done).toNat + 4 * (s.st == .error).toNat
          + 16 * (errorNumber s.errCode).toNat + 256 * (stateCode s.st).toNat + 4096 * (stateCode s.errState).toNat
          + 65536 * (s.irqEn && (s.st == .done || s.st == .error)).toNat

/-- The eight configuration register writes (R145, R25): stored with BUSY = 0, ignored with BUSY = 1. IHDR_FMT1 keeps its bits
8:0 only (R20). A write to a read-only register has no effect. -/
def Obligations.ConfigWriteCommands : Prop :=
  (∀ (d : Word) (s : State), s.busy = false →
      exec (.writeIhdrWidth d) s = .next { s with cfg := { s.cfg with ihdrWidth := d } }
      ∧ exec (.writeIhdrHeight d) s = .next { s with cfg := { s.cfg with ihdrHeight := d } }
      ∧ exec (.writeIhdrFmt0 d) s = .next { s with cfg := { s.cfg with ihdrFmt0 := d } }
      ∧ exec (.writeIhdrFmt1 d) s = .next { s with cfg := { s.cfg with ihdrFmt1 := BitVec.ofNat 32 (d.toNat % 512) } }
      ∧ exec (.writeSegtabBase d) s = .next { s with cfg := { s.cfg with segtabBase := d } }
      ∧ exec (.writeSegCount d) s = .next { s with cfg := { s.cfg with segCount := d } }
      ∧ exec (.writeWorkBase d) s = .next { s with cfg := { s.cfg with workBase := d } }
      ∧ exec (.writeOutBase d) s = .next { s with cfg := { s.cfg with outBase := d } })
    ∧ (∀ (d : Word) (s : State) (i : Instr), s.busy = true →
      i ∈ [.writeIhdrWidth d, .writeIhdrHeight d, .writeIhdrFmt0 d, .writeIhdrFmt1 d, .writeSegtabBase d,
        .writeSegCount d, .writeWorkBase d, .writeOutBase d] → exec i s = .next s)
    ∧ ∀ (d : Word) (s : State) (offset : BitVec 8),
      offset ∈ [0x04#8, 0x28#8, 0x2C#8, 0x30#8, 0x34#8, 0x38#8, 0x3C#8, 0x40#8, 0x44#8, 0x48#8] →
      hostWrites s offset d → step s = .next (popHost s)

/-- A configuration register that is written with BUSY = 0 reads back as it was written, reserved bits as 0 (R18 to R21, R26); in
every state the three size registers read their values (R22). A read changes nothing of the block but, for an unspecified value,
the number of the next free value (log 7, log 32). -/
def Obligations.RegistersReadBack : Prop :=
  (∀ (s : State) (offset : BitVec 8) (v : Word),
      offset ∈ [0x08#8, 0x0C#8, 0x10#8, 0x14#8, 0x18#8, 0x1C#8, 0x20#8, 0x24#8] → hostWrites s offset v →
      s.busy = false →
      ∃ t, step s = .next t
        ∧ (hostReadRegister offset t).busRdata.toNat = if offset = 0x14#8 then v.toNat % 512 else v.toNat)
    ∧ (∀ s : State,
      (hostReads s 0x28#8 → ∃ t, step s = .next t ∧ t.busRdata.toNat = s.sizes.outChannels.toNat)
      ∧ (hostReads s 0x2C#8 → step s = .next { popHost s with busRdata := s.sizes.workSize })
      ∧ (hostReads s 0x30#8 → step s = .next { popHost s with busRdata := s.sizes.outSize }))
    ∧ ∀ (s : State) (offset : BitVec 8), hostReads s offset → offset ≠ 0x04#8 → offset.toNat % 4 = 0 →
      step s = .next (hostReadRegister offset (popHost s))
      ∧ ∃ (v : Word) (n : Nat), hostReadRegister offset (popHost s) = { popHost s with busRdata := v, draws := n }

/-- Reserved offsets and bits (R26, R16, R17, R20, R22, R24): they read 0 and a write has no effect. The reserved bits are 31:3 of
CTRL, 3 and 31:17 of STATUS, 31:9 of IHDR_FMT1, 31:3 of OUT_CHANNELS and of CUR_BIT. -/
def Obligations.ReservedReadsAndWrites : Prop :=
  (∀ (s : State) (offset : BitVec 8), 0x4C ≤ offset.toNat → (hostReadRegister offset s).busRdata = 0)
    ∧ (∀ (s : State) (offset : BitVec 8) (v : Word), 0x4C ≤ offset.toNat → offset.toNat % 4 = 0 →
      hostWrites s offset v → step s = .next (popHost s))
    ∧ (∀ s : State, (hostReadRegister 0x00#8 s).busRdata = if s.irqEn then 4 else 0)
    ∧ (∀ s : State, (hostReadRegister 0x04#8 s).busRdata.getLsbD 3 = false
      ∧ (hostReadRegister 0x04#8 s).busRdata.toNat < 2 ^ 17)
    ∧ (∀ s : State, s.cfg.ihdrFmt1.toNat < 512 → (hostReadRegister 0x14#8 s).busRdata.toNat < 512)
    ∧ (∀ s : State, (hostReadRegister 0x28#8 s).busRdata.toNat < 8)
    ∧ (∀ s : State, s.busy = false → s.isError = false → (hostReadRegister 0x44#8 s).busRdata.toNat < 8)
    ∧ (∀ (a b : BitVec 1) (r q : BitVec 29) (s : State),
      exec (.start a r) s = exec (.start a q) s ∧ exec (.setIrqEn a r) s = exec (.setIrqEn a q) s
        ∧ exec (.softReset a b r) s = exec (.softReset a b q) s)
    ∧ ∀ (d e : Word) (s : State), d.toNat % 512 = e.toNat % 512 →
      exec (.writeIhdrFmt1 d) s = exec (.writeIhdrFmt1 e) s

/-- The progress registers (R24): 0 in IDLE, their values after DONE, where OUT_COUNT is WORK_SIZE, and while BUSY = 1 or after
ERROR a free value, a fresh one for each read (log 32). -/
def Obligations.ProgressReads : Prop :=
  ∀ (s : State) (offset : BitVec 8), offset ∈ [0x34#8, 0x38#8, 0x3C#8, 0x40#8, 0x44#8, 0x48#8] → Inv s →
    (s.st = .idle → hostReadRegister offset s = { s with busRdata := 0 })
    ∧ (s.st = .done →
      s.outCount = s.sizes.workSize
      ∧ (offset = 0x34#8 → hostReadRegister offset s = { s with busRdata := s.sizes.workSize })
      ∧ (offset = 0x38#8 → hostReadRegister offset s = { s with busRdata := s.cur.seg })
      ∧ (offset = 0x3C#8 → hostReadRegister offset s = { s with busRdata := s.cur.addr })
      ∧ (offset = 0x40#8 → hostReadRegister offset s = { s with busRdata := s.cur.rem })
      ∧ (offset = 0x44#8 → hostReadRegister offset s = { s with busRdata := BitVec.ofNat 32 s.cur.bit.toNat })
      ∧ (offset = 0x48#8 → hostReadRegister offset s = { s with busRdata := s.blockCount }))
    ∧ (s.busy = true ∨ s.st = .error →
      hostReadRegister offset s = { s with busRdata := Config.freeWord s.draws, draws := s.draws + 1 })

/-! ### CONFIG_CHECK -/

/-- Operation CONFIG_CHECK (R140), the step of the state CONFIG_CHECK, for every value of the open parameter MAX_WORK_BYTES (R8):
the checks in their order, each with the error it raises, then the latches, the sizes, the cursor and ZLIB_HEADER. The products
are exact. A decode that breaks host duty 1 or 2 (R42) is refused (log 10). -/
def Obligations.ConfigCheckOperation : Prop :=
  (∀ s : State, engineMoves s → s.st = .configCheck →
      step s = (configCheckWith Config.maxWorkBytes (tickHost s)).finish)
    ∧ 1 ≤ Config.maxWorkBytes ∧ Config.maxWorkBytes < 2 ^ 32
    ∧ ∀ (maxWork : Nat) (s l : State) (w h depth ctype comp filt inter bpp : Nat) (o : Host.Outcome State Fault Refusal),
    maxWork < 2 ^ 32 → o = (configCheckWith maxWork s).finish →
    w = s.cfg.ihdrWidth.toNat → h = s.cfg.ihdrHeight.toNat →
    depth = s.cfg.ihdrFmt0.toNat % 256 → ctype = s.cfg.ihdrFmt0.toNat / 256 % 256 →
    comp = s.cfg.ihdrFmt0.toNat / 65536 % 256 → filt = s.cfg.ihdrFmt0.toNat / 16777216 →
    inter = s.cfg.ihdrFmt1.toNat % 256 → bpp = (if ctype = 2 then 3 else 4) →
    l = { s with lat :=
      { s.lat with
        w := s.cfg.ihdrWidth
        h := s.cfg.ihdrHeight
        segtab := s.cfg.segtabBase
        nseg := s.cfg.segCount
        wbase := s.cfg.workBase
        obase := s.cfg.outBase } } →
    (s.cfg.ihdrFmt1.getLsbD 8 = false → o = .next (enterError .missingHeaderOrData l))
    ∧ (s.cfg.ihdrFmt1.getLsbD 8 = true →
        depth ≠ 8 ∨ (ctype ≠ 2 ∧ ctype ≠ 6) ∨ comp ≠ 0 ∨ filt ≠ 0 ∨ inter ≠ 0 ∨ w = 0 ∨ h = 0 →
        o = .next (enterError .unsupportedImageFormat l))
    ∧ (s.cfg.ihdrFmt1.getLsbD 8 = true →
        depth = 8 ∧ (ctype = 2 ∨ ctype = 6) ∧ comp = 0 ∧ filt = 0 ∧ inter = 0 ∧ w ≠ 0 ∧ h ≠ 0 →
        (s.cfg.segCount = 0 → o = .next (enterError .missingHeaderOrData l))
        ∧ (s.cfg.segCount ≠ 0 → maxWork < h * (1 + w * bpp) →
          o = .next (enterError .unsupportedImageFormat
            { l with lat := { l.lat with bpp := BitVec.ofNat 3 bpp } }))
        ∧ ∀ u : State, u = { l with
            lat := { l.lat with bpp := BitVec.ofNat 3 bpp, stride := BitVec.ofNat 32 (w * bpp) }
            sizes :=
              { outChannels := BitVec.ofNat 3 bpp
                workSize := BitVec.ofNat 32 (h * (1 + w * bpp))
                outSize := BitVec.ofNat 32 (h * (w * bpp)) } } →
          s.cfg.segCount ≠ 0 → h * (1 + w * bpp) ≤ maxWork →
          (u.lat.stride.toNat = w * bpp ∧ u.sizes.workSize.toNat = h * (1 + w * bpp)
            ∧ u.sizes.outSize.toNat = h * (w * bpp))
          ∧ (regionsFit u = true → buffersDisjoint u = true →
            o = .next { u with
              st := .zlibHeader
              phase := .boundary
              cur := ⟨0, s.mem.readLe32 s.cfg.segtabBase.toNat, s.mem.readLe32 (s.cfg.segtabBase.toNat + 4), 0⟩ })
          ∧ (regionsFit u = false → o = .refused .regionBeyondMemory)
          ∧ (regionsFit u = true → buffersDisjoint u = false → o = .refused .regionsOverlap))

/-- What the region tests say: duties 1 and 2 of R42 in CONFIG_CHECK, and duty 3 for the host's accesses to memory after it. While
the regions are the engine's, the host reads no byte of the two buffers and writes no byte of the four regions; the same holds of
the regions of an earlier decode whose end the host has not read from STATUS, and an accepted START gives none back (log 11). -/
def Obligations.RegionTestsMeanDuties : Prop :=
  (∀ s : State,
    (regionsFit s = true ↔
      s.lat.segtab.toNat + 8 * s.lat.nseg.toNat ≤ memBytes
      ∧ s.lat.wbase.toNat + s.sizes.workSize.toNat ≤ memBytes
      ∧ s.lat.obase.toNat + s.sizes.outSize.toNat ≤ memBytes
      ∧ ∀ k, k < s.lat.nseg.toNat →
          (s.mem.readLe32 (s.lat.segtab.toNat + 8 * k)).toNat + segmentLength s k ≤ memBytes)
    ∧ (buffersDisjoint s = true ↔
      (∀ a, ¬ (inWork s a ∧ inOut s a))
      ∧ ∀ a, inWork s a ∨ inOut s a → ¬ inTable s a ∧ ¬ inSegments s a))
    ∧ (∀ (s : State) (a : Word), hostMoves s (.memRead a) → s.st ≠ .configCheck →
      ((∀ e, s.loan = some e → ¬ inWork s a.toNat ∧ ¬ inOut s a.toNat ∧ ∀ q ∈ e.buffers, q.holds a.toNat = false) →
        step s = .next { popHost s with busRdata := BitVec.ofNat 32 (s.mem.read a.toNat).toNat })
      ∧ ∀ e, s.loan = some e → inWork s a.toNat ∨ inOut s a.toNat ∨ (∃ q ∈ e.buffers, q.holds a.toNat = true) →
        step s = .refused .hostTouchesRegion)
    ∧ (∀ (s : State) (a : Word) (b : Byte), hostMoves s (.memWrite a b) → s.st ≠ .configCheck →
      ((∀ e, s.loan = some e → ¬ inWork s a.toNat ∧ ¬ inOut s a.toNat ∧ ¬ inTable s a.toNat ∧ ¬ inSegments s a.toNat
          ∧ ∀ q ∈ e.buffers ++ e.input, q.holds a.toNat = false) →
        ∃ m : Memory, step s = .next { popHost s with mem := m }
          ∧ m.read a.toNat = b ∧ (∀ x, x ≠ a.toNat → m.read x = s.mem.read x) ∧ (s.mem.wf → m.wf))
      ∧ ∀ e, s.loan = some e → inWork s a.toNat ∨ inOut s a.toNat ∨ inTable s a.toNat ∨ inSegments s a.toNat
          ∨ (∃ q ∈ e.buffers ++ e.input, q.holds a.toNat = true) →
        step s = .refused .hostTouchesRegion)
    ∧ ∀ (irqEn : BitVec 1) (reserved : BitVec 29) (s : State), s.busy = false →
      ∃ t, exec (.start irqEn reserved) s = .next t
        ∧ ∀ r : Region, (mayRead s r = false → mayRead t r = false) ∧ (mayWrite s r = false → mayWrite t r = false)

/-! ### Error entry -/

/-- Error entry (R147): a step into ERROR records the error and the state it was raised in and keeps IRQ_EN, the configuration
registers and the size registers, which are 0 if the configuration check did not pass; memory outside the two buffers stays. -/
def Obligations.ErrorEntryRecorded : Prop :=
  ∀ s t : State, Inv s → step s = .next t → s.st ≠ .error → t.st = .error →
    s.busy = true ∧ t.errState = s.st ∧ t.errCode ≠ .noError ∧ t.errCode ≠ .badSignature
    ∧ t.irqEn = s.irqEn ∧ t.cfg = s.cfg ∧ t.sizes = s.sizes ∧ (s.st = .configCheck → t.sizes = ⟨0, 0, 0⟩)
    ∧ t.busy = false ∧ t.isDone = false
    ∧ ∀ a, ¬ inWork s a → ¬ inOut s a → t.mem.read a = s.mem.read a

/-! ### Container parser -/

/-- The chunk types (R85, R86, R87): the first IHDR is recorded or fails the call, a later one and every other chunk is
skipped, an IDAT is one more segment of the chain. The read of a first IHDR's 13 bytes is under duty 3 of R42 (log 11). -/
def Obligations.ChunkElements : Prop :=
  ∀ (s : State) (pay : Nat), pay = s.job.inputBase.toNat + s.job.pos + 8 →
    (∀ tag : BitVec 32, exec (.chunkOther tag) s = .next { s with job := { s.job with
      pos := s.job.pos + 12 + s.job.chunkLen.toNat } })
    ∧ exec .chunkIdat s = .next { s with job := { s.job with
        segs := s.job.segs ++ [⟨BitVec.ofNat 32 pay, s.job.chunkLen⟩]
        pos := s.job.pos + 12 + s.job.chunkLen.toNat } }
    ∧ (s.job.ihdr ≠ none → exec .chunkIhdr s = .next { s with job := { s.job with
        pos := s.job.pos + 12 + s.job.chunkLen.toNat } })
    ∧ (s.job.ihdr = none → s.job.chunkLen ≠ 13 → exec .chunkIhdr s = .next { s with job := { s.job with
        phase := .returned
        result := .failure .unsupportedImageFormat } })
    ∧ (s.job.ihdr = none → s.job.chunkLen = 13 → mayRead s ⟨pay, 13⟩ = false →
      exec .chunkIhdr s = .refused .hostTouchesRegion)
    ∧ (s.job.ihdr = none → s.job.chunkLen = 13 → pay + 13 ≤ memBytes → mayRead s ⟨pay, 13⟩ = true → ∀ hd : Ihdr,
        hd = ⟨s.mem.readBe32 pay, s.mem.readBe32 (pay + 4), s.mem.read (pay + 8), s.mem.read (pay + 9),
          s.mem.read (pay + 10), s.mem.read (pay + 11), s.mem.read (pay + 12)⟩ →
        (hd.bitDepth = 8 ∧ (hd.colorType = 2 ∨ hd.colorType = 6) ∧ hd.compression = 0 ∧ hd.filter = 0
            ∧ hd.interlace = 0 ∧ hd.width ≠ 0 ∧ hd.height ≠ 0 →
          exec .chunkIhdr s = .next { s with job := { s.job with
            ihdr := some hd
            pos := s.job.pos + 12 + s.job.chunkLen.toNat } })
        ∧ (hd.bitDepth ≠ 8 ∨ (hd.colorType ≠ 2 ∧ hd.colorType ≠ 6) ∨ hd.compression ≠ 0 ∨ hd.filter ≠ 0
            ∨ hd.interlace ≠ 0 ∨ hd.width = 0 ∨ hd.height = 0 →
          exec .chunkIhdr s = .next { s with job := { s.job with
            phase := .returned
            result := .failure .unsupportedImageFormat } }))

/-- The signature check (R83) and the bounds of the chunk walk (R84). The decode call takes the input's place and the regions
from the host (log 18); its reads are under duty 3 of R42 (log 11). -/
def Obligations.SignatureAndWalkBounds : Prop :=
  (∀ (s : State) (base : Word) (len : Nat) (place : Placement) (job : HostJob),
      hostMoves s (.openImage base len place) → base.toNat + len ≤ memBytes →
      job = ⟨.walking, base, len, 8, 0, none, [], place, none, none, .pending⟩ →
      (len < 8 → step s = .next { popHost s with job := { job with
          phase := .returned
          result := .failure .badSignature } })
      ∧ (8 ≤ len → mayRead s ⟨base.toNat, 8⟩ = false → step s = .refused .hostTouchesRegion)
      ∧ (8 ≤ len → mayRead s ⟨base.toNat, 8⟩ = true →
        (∃ k, k < 8 ∧ s.mem.read (base.toNat + k) ≠
          ([0x89, 0x50, 0x4E, 0x47, 0x0D, 0x0A, 0x1A, 0x0A] : List Byte).getD k 0) →
        step s = .next { popHost s with job := { job with
          phase := .returned
          result := .failure .badSignature } })
      ∧ (8 ≤ len → mayRead s ⟨base.toNat, 8⟩ = true → (∀ k, k < 8 → s.mem.read (base.toNat + k) =
          ([0x89, 0x50, 0x4E, 0x47, 0x0D, 0x0A, 0x1A, 0x0A] : List Byte).getD k 0) →
        step s = .next { popHost s with
          job := job
          hostQueue := ⟨0, .walkChunk⟩ :: s.hostQueue.tail }))
    ∧ ∀ s : State, hostMoves s .walkChunk → s.job.phase = .walking →
      s.job.inputBase.toNat + s.job.inputLen ≤ memBytes → s.job.pos < s.job.inputLen →
      (s.job.inputLen < s.job.pos + 12 → step s = .next { s with job := { s.job with
        phase := .returned
        result := .failure .truncatedInput } })
      ∧ (s.job.pos + 12 ≤ s.job.inputLen → mayRead s ⟨s.job.inputBase.toNat + s.job.pos, 8⟩ = false →
        step s = .refused .hostTouchesRegion)
      ∧ (s.job.pos + 12 ≤ s.job.inputLen → mayRead s ⟨s.job.inputBase.toNat + s.job.pos, 8⟩ = true →
        s.job.inputLen < s.job.pos + 12 + (s.mem.readBe32 (s.job.inputBase.toNat + s.job.pos)).toNat →
        step s = .next { s with job := { s.job with
          phase := .returned
          result := .failure .truncatedInput } })

/-- The end of the walk (R88, R89), for every value of MAX_WORK_BYTES, the launch (R90): the allocated regions, the segment table
byte by byte, the eight registers and CTRL in their order, then the wait; and what the call returns and frees (R82, R90). Where the
host puts the table, the work region and the output region, and that an allocation which breaks duty 1 or 2 of R42 is refused, is
the model's (log 16, log 18, log 10). -/
def Obligations.EndOfWalkAndResult : Prop :=
  (∀ s : State, hostMoves s .walkChunk → s.job.phase = .walking → s.job.inputLen ≤ s.job.pos →
      step s = endWalkWith Config.maxWorkBytes (popHost s))
    ∧ (∀ (maxWork : Nat) (s : State),
      (s.job.ihdr = none ∨ s.job.segs = [] → endWalkWith maxWork s = .next { s with job := { s.job with
        phase := .returned
        result := .failure .missingHeaderOrData } })
      ∧ ∀ hd : Ihdr, s.job.ihdr = some hd → s.job.segs ≠ [] → ∀ (bpp n : Nat) (work out : Region),
        bpp = (if hd.colorType = 2 then 3 else 4) → n = s.job.segs.length →
        work = ⟨s.job.place.work.toNat, hd.height.toNat * (1 + hd.width.toNat * bpp)⟩ →
        out = ⟨s.job.place.out.toNat, hd.height.toNat * (hd.width.toNat * bpp)⟩ →
        (maxWork < work.size → endWalkWith maxWork s = .next { s with job := { s.job with
          phase := .returned
          result := .failure .unsupportedImageFormat } })
        ∧ (work.size ≤ maxWork →
          ¬ (work.base + work.size ≤ memBytes ∧ out.base + out.size ≤ memBytes
            ∧ s.job.place.segtab.toNat + 8 * n ≤ memBytes) →
          endWalkWith maxWork s = .refused .regionBeyondMemory)
        ∧ (work.size ≤ maxWork → work.base + work.size ≤ memBytes → out.base + out.size ≤ memBytes →
          s.job.place.segtab.toNat + 8 * n ≤ memBytes →
          (¬ allocationApart work out ⟨s.job.place.segtab.toNat, 8 * n⟩ s.job.segs →
            endWalkWith maxWork s = .refused .regionsOverlap)
          ∧ (allocationApart work out ⟨s.job.place.segtab.toNat, 8 * n⟩ s.job.segs →
            ∃ (table : List HostEntry) (fmt0 fmt1 : Word), table.length = 8 * n
              ∧ (∀ i j g, s.job.segs[i]? = some g → j < 8 → table[8 * i + j]? = some ⟨0, .memWrite
                  (BitVec.ofNat 32 (s.job.place.segtab.toNat + 8 * i + j))
                  (BitVec.ofNat 8 ((g.addr.toNat + 2 ^ 32 * g.len.toNat) / 256 ^ j))⟩)
              ∧ fmt0.toNat = hd.bitDepth.toNat + 256 * hd.colorType.toNat + 65536 * hd.compression.toNat
                  + 16777216 * hd.filter.toNat
              ∧ fmt1.toNat = hd.interlace.toNat + 256
              ∧ endWalkWith maxWork s = .next { s with
                  job := { s.job with phase := .launched, work := some work, out := some out }
                  hostQueue := table ++
                    [ ⟨0, .regWrite 4 0x08 hd.width⟩, ⟨0, .regWrite 4 0x0C hd.height⟩, ⟨0, .regWrite 4 0x10 fmt0⟩,
                      ⟨0, .regWrite 4 0x14 fmt1⟩, ⟨0, .regWrite 4 0x18 s.job.place.segtab⟩,
                      ⟨0, .regWrite 4 0x1C (BitVec.ofNat 32 n)⟩, ⟨0, .regWrite 4 0x20 s.job.place.work⟩,
                      ⟨0, .regWrite 4 0x24 s.job.place.out⟩,
                      ⟨0, .regWrite 4 0x00 (if s.job.place.irqEn then 5 else 1)⟩, ⟨0, .takeResult⟩ ]
                    ++ s.hostQueue })))
    ∧ ∀ s : State, hostMoves s .takeResult → s.job.phase = .launched →
      (s.st = .done → step s = .next { popHost s with
        busRdata := s.statusWord
        loan := none
        job := { s.job with
          phase := .returned
          work := none
          result := .image s.job.place.out s.cfg.ihdrWidth s.cfg.ihdrHeight (s.sizes.outChannels.setWidth 32) } })
      ∧ (s.st = .error → step s = .next { popHost s with
        busRdata := s.statusWord
        loan := none
        job := { s.job with
          phase := .returned
          work := none
          out := none
          result := .failure s.errCode } })

end
end

