-- ==== Sys2Proof/Laws/Run.lean ====
section
/-! SUPPORT. Running operations: `Run.All` says what an operation's state is when it runs through and when it raises, and
when it does not stop at all; one lemma for sequencing; what each access to memory and `emit` can do. -/

namespace Sys2Proof.Machine

/-- What holds of a running operation's results: `P` of a value and state it runs through with, `R` of an error it raises
and the state at the raise. With `stops` it may also stop with a fault or a refusal. -/
def Run.All {α : Type} (stops : Prop) (P : α → State → Prop) (R : ErrorCode → State → Prop) : Run α → Prop
  | .ok a s => P a s
  | .raise e s => R e s
  | .fault _ => stops
  | .refuse _ => stops

@[simp] theorem Run.bind_ok {α β : Type} (a : α) (s : State) (k : α → State → Run β) :
    (Run.ok a s).bind k = k a s := rfl

@[simp] theorem Run.bind_raise {α β : Type} (e : ErrorCode) (s : State) (k : α → State → Run β) :
    (Run.raise e s : Run α).bind k = .raise e s := rfl

@[simp] theorem Run.bind_fault {α β : Type} (f : Fault) (k : α → State → Run β) :
    (Run.fault f : Run α).bind k = .fault f := rfl

@[simp] theorem Run.bind_refuse {α β : Type} (r : Refusal) (k : α → State → Run β) :
    (Run.refuse r : Run α).bind k = .refuse r := rfl

@[simp] theorem Run.finish_ok (s : State) : (Run.ok () s).finish = .next s := rfl

@[simp] theorem Run.finish_raise (e : ErrorCode) (s : State) :
    (Run.raise e s : Run Unit).finish = .next (enterError e s) := rfl

@[simp] theorem Run.finish_fault (f : Fault) : (Run.fault f : Run Unit).finish = .fault f := rfl

@[simp] theorem Run.finish_refuse (r : Refusal) : (Run.refuse r : Run Unit).finish = .refused r := rfl

theorem Run.All.bind {α β : Type} {stops : Prop} {P : α → State → Prop} {R : ErrorCode → State → Prop}
    {Q : β → State → Prop} {x : Run α} {k : α → State → Run β}
    (hx : x.All stops P R) (hk : ∀ a s, P a s → (k a s).All stops Q R) : (x.bind k).All stops Q R := by
  cases x with
  | ok a s => exact hk a s hx
  | raise e s => exact hx
  | fault f => exact hx
  | refuse r => exact hx

theorem Run.All.imp {α : Type} {stops stops' : Prop} {P Q : α → State → Prop} {R R' : ErrorCode → State → Prop}
    {x : Run α} (hx : x.All stops P R) (hs : stops → stops') (hP : ∀ a s, P a s → Q a s) (hR : ∀ e s, R e s → R' e s) :
    x.All stops' Q R' := by
  cases x with
  | ok a s => exact hP a s hx
  | raise e s => exact hR e s hx
  | fault f => exact hs hx
  | refuse r => exact hs hx

/-- A running operation's two readings together. -/
theorem Run.All.and {α : Type} {stops stops' : Prop} {P Q : α → State → Prop} {R R' : ErrorCode → State → Prop}
    {x : Run α} (h : x.All stops P R) (h' : x.All stops' Q R') :
    x.All (stops ∧ stops') (fun a s => P a s ∧ Q a s) (fun e s => R e s ∧ R' e s) := by
  cases x <;> exact ⟨h, h'⟩

/-- The end of an operation: its state, or the error entry of the state at the raise. -/
theorem Run.All.finish {stops : Prop} {P : Unit → State → Prop} {R : ErrorCode → State → Prop} {x : Run Unit}
    (hx : x.All stops P R) {t : State} (h : x.finish = .next t) :
    P () t ∨ ∃ e s, R e s ∧ t = enterError e s := by
  cases x with
  | ok a s => cases h; exact .inl hx
  | raise e s => cases h; exact .inr ⟨e, s, hx, rfl⟩
  | fault f => cases h
  | refuse r => cases h

/-- An operation that cannot stop ends in a next state. -/
theorem Run.All.finish_next {P : Unit → State → Prop} {R : ErrorCode → State → Prop} {x : Run Unit}
    (hx : x.All False P R) : ∃ t, x.finish = .next t := by
  cases x with
  | ok a s => exact ⟨s, rfl⟩
  | raise e s => exact ⟨_, rfl⟩
  | fault f => exact hx.elim
  | refuse r => exact hx.elim

/-- A byte read changes nothing and raises nothing; it stops outside memory only. -/
theorem memRead_all (a : Nat) (s : State) :
    (memRead a s).All (memBytes ≤ a) (fun b t => t = s ∧ b = s.mem.read a) (fun _ _ => False) := by
  unfold memRead
  split
  · exact ⟨rfl, rfl⟩
  · exact not_lt.1 ‹_›

theorem memRead_ok {a : Nat} (s : State) (h : a < memBytes) : memRead a s = .ok (s.mem.read a) s := by
  simp [memRead, h]

theorem memWrite_ok {a : Nat} (b : Byte) (s : State) (h : a < memBytes) :
    memWrite a b s = .ok () { s with mem := s.mem.write a b } := by
  simp [memWrite, h]

theorem memReadLe32_ok {a : Nat} (s : State) (h : a + 3 < memBytes) :
    memReadLe32 a s = .ok (s.mem.readLe32 a) s := by
  simp [memReadLe32, h]

theorem memReadBe32_ok {a : Nat} (s : State) (h : a + 3 < memBytes) :
    memReadBe32 a s = .ok (s.mem.readBe32 a) s := by
  simp [memReadBe32, h]

theorem memWrite_all (a : Nat) (b : Byte) (s : State) :
    (memWrite a b s).All (memBytes ≤ a) (fun _ t => a < memBytes ∧ t = { s with mem := s.mem.write a b })
      (fun _ _ => False) := by
  unfold memWrite
  split
  · exact ⟨‹_›, rfl⟩
  · exact not_lt.1 ‹_›

theorem memReadLe32_all (a : Nat) (s : State) :
    (memReadLe32 a s).All (memBytes ≤ a + 3) (fun v t => t = s ∧ v = s.mem.readLe32 a) (fun _ _ => False) := by
  unfold memReadLe32
  split
  · exact ⟨rfl, rfl⟩
  · exact not_lt.1 ‹_›

theorem memReadBe32_all (a : Nat) (s : State) :
    (memReadBe32 a s).All (memBytes ≤ a + 3) (fun v t => t = s ∧ v = s.mem.readBe32 a) (fun _ _ => False) := by
  unfold memReadBe32
  split
  · exact ⟨rfl, rfl⟩
  · exact not_lt.1 ‹_›

/-- Everything `emit` can do (R117): raise with nothing written when the output is full, else write one byte in memory and
count it; it stops only where the work buffer leaves memory. -/
theorem emit_all (b : Byte) (s : State) :
    (emit b s).All (memBytes ≤ s.lat.wbase.toNat + s.outCount.toNat)
      (fun _ t => s.outCount ≠ s.sizes.workSize ∧ s.lat.wbase.toNat + s.outCount.toNat < memBytes
        ∧ t = { s with mem := s.mem.write (s.lat.wbase.toNat + s.outCount.toNat) b, outCount := s.outCount + 1 })
      (fun e t => e = .outputSizeMismatch ∧ s.outCount = s.sizes.workSize ∧ t = s) := by
  unfold emit
  split
  · exact ⟨rfl, ‹_›, rfl⟩
  · refine Run.All.bind (P := fun _ t => s.lat.wbase.toNat + s.outCount.toNat < memBytes
        ∧ t = { s with mem := s.mem.write (s.lat.wbase.toNat + s.outCount.toNat) b }) ?_ ?_
    · unfold memWrite
      split
      · exact ⟨‹_›, rfl⟩
      · exact not_lt.1 ‹_›
    · rintro - t ⟨h, rfl⟩
      exact ⟨‹_›, h, rfl⟩

theorem emit_ok {b : Byte} {s : State} (hc : s.outCount ≠ s.sizes.workSize)
    (hm : s.lat.wbase.toNat + s.outCount.toNat < memBytes) :
    emit b s = .ok ()
      { s with mem := s.mem.write (s.lat.wbase.toNat + s.outCount.toNat) b, outCount := s.outCount + 1 } := by
  simp [emit, hc, memWrite_ok _ _ hm]

end Sys2Proof.Machine
end

