-- ==== Sys2Proof/Laws/Host.lean ====
section
/-! SUPPORT. The host's side: what the region tests say (20_memory R42), everything a guarded read of the parser can do, and the
bytes the launch writes (41_host_container R89, R90). -/

namespace Sys2Proof.Machine

/-! ### Regions -/

theorem Region.fits_iff (r : Region) : r.fits = true ↔ r.base + r.size ≤ memBytes := by simp [Region.fits]

theorem Region.holds_iff (r : Region) (a : Nat) : r.holds a = true ↔ r.base ≤ a ∧ a < r.base + r.size := by
  simp [Region.holds]

/-- Two regions do not overlap exactly when no address lies in both. -/
theorem Region.overlaps_eq_false (r q : Region) :
    r.overlaps q = false ↔ ∀ a, ¬ (r.holds a = true ∧ q.holds a = true) := by
  simp only [Region.holds_iff]
  constructor
  · intro h a ha
    simp [Region.overlaps] at h
    omega
  · intro h
    by_contra hc
    simp [Region.overlaps] at hc
    exact h (max r.base q.base) (by omega)

/-- A test of all segments is the test of each. -/
theorem allSegments_iff (m : Memory) (base : Nat) (p : Region → Bool) (n : Nat) :
    allSegments m base p n = true ↔ ∀ i, i < n → p (segmentRegion m base i) = true := by
  induction n with
  | zero => simp [allSegments]
  | succ n ih =>
    simp only [allSegments, Bool.and_eq_true, ih, Nat.lt_succ_iff_lt_or_eq]
    constructor
    · rintro ⟨h, hn⟩ i (hi | rfl)
      exacts [h i hi, hn]
    · exact fun h => ⟨fun i hi => h i (.inl hi), h n (.inr rfl)⟩

/-! ### Duty 3 -/

@[simp] theorem withLent_buffers (s : State) (e : LentRegions) :
    (withLent s e).buffers = lentBuffers s ++ e.buffers := rfl

@[simp] theorem withLent_input (s : State) (e : LentRegions) : (withLent s e).input = lentInput s ++ e.input := rfl

theorem forall_mem_lentInput (s : State) (p : Region → Prop) :
    (∀ q ∈ lentInput s, p q) ↔ p (tableRegion (lentTable s).1 (lentTable s).2)
      ∧ ∀ i, i < (lentTable s).2 → p (segmentRegion s.mem (lentTable s).1 i) := by
  simp [lentInput]

theorem mayRead_iff (s : State) (r : Region) :
    mayRead s r = true ↔ ∀ e, s.loan = some e → ∀ q ∈ (withLent s e).buffers, r.overlaps q = false := by
  cases h : s.loan <;> simp [mayRead, h, or_imp, forall_and]

theorem mayWrite_iff (s : State) (r : Region) :
    mayWrite s r = true ↔ ∀ e, s.loan = some e →
      (∀ q ∈ (withLent s e).buffers, r.overlaps q = false) ∧ ∀ q ∈ (withLent s e).input, r.overlaps q = false := by
  cases h : s.loan <;> simp [mayWrite, h, or_imp, forall_and]

/-- An accepted START closes the new decode's regions and gives none back: what was the engine's stays so. -/
theorem acceptStart_keeps {s : State} {e : LentRegions} (h : s.loan = some e) :
    (acceptStart s).loan = some (withLent s e) := by
  simp [acceptStart, goto, h]

/-- A guarded read is the read, or the refusal of duty 3. -/
theorem hostReading_all {α : Type} {a n : Nat} {s : State} {x : Run α} {stops : Prop} {P : α → State → Prop}
    {R : ErrorCode → State → Prop} (h : x.All stops P R) :
    (hostReading a n s x).All (stops ∨ mayRead s ⟨a, n⟩ = false) P R := by
  unfold hostReading
  split
  · exact h.imp .inl (fun _ _ h => h) fun _ _ h => h
  · rename_i hr
    exact .inr (by simpa using hr)

/-- The IHDR fields of 13 bytes that lie in memory (R85). -/
theorem readIhdr_ok {a : Nat} (s : State) (h : a + 13 ≤ memBytes) :
    readIhdr a s = .ok ⟨s.mem.readBe32 a, s.mem.readBe32 (a + 4), s.mem.read (a + 8), s.mem.read (a + 9),
      s.mem.read (a + 10), s.mem.read (a + 11), s.mem.read (a + 12)⟩ s := by
  unfold readIhdr
  rw [memReadBe32_ok _ (by omega), Run.bind_ok, memReadBe32_ok _ (by omega), Run.bind_ok, memRead_ok _ (by omega),
    Run.bind_ok, memRead_ok _ (by omega), Run.bind_ok, memRead_ok _ (by omega), Run.bind_ok, memRead_ok _ (by omega),
    Run.bind_ok, memRead_ok _ (by omega), Run.bind_ok]

/-! ### The launch -/

theorem memWrites_length (l : List Byte) (a : Word) : (memWrites l a).length = l.length := by
  induction l generalizing a with
  | nil => rfl
  | cons b t ih => simp [memWrites, ih]

/-- The `k`-th host write of a run of bytes. -/
theorem memWrites_get (l : List Byte) (a k : Nat) (h : k < l.length) :
    (memWrites l (BitVec.ofNat 32 a))[k]? = some ⟨0, .memWrite (BitVec.ofNat 32 (a + k)) l[k]⟩ := by
  induction l generalizing a k with
  | nil => simp at h
  | cons b t ih =>
    cases k with
    | zero => rfl
    | succ k =>
      have e : BitVec.ofNat 32 a + 1 = BitVec.ofNat 32 (a + 1) := by
        apply BitVec.eq_of_toNat_eq; simp
      simp only [memWrites, List.getElem?_cons_succ, e, List.getElem_cons_succ]
      rw [ih (a + 1) k (by simpa using h), Nat.add_assoc, Nat.add_comm 1 k]

/-- The segment table has 8 bytes for each segment (R41). -/
theorem tableBytes_length (l : List Segment) : (tableBytes l).length = 8 * l.length := by
  induction l with
  | nil => rfl
  | cons g t ih =>
    have e : tableBytes (g :: t) = (le32Bytes g.addr ++ le32Bytes g.len) ++ tableBytes t := rfl
    rw [e, List.length_append, ih]
    simp [le32Bytes]
    omega

end Sys2Proof.Machine
end

