-- ==== Sys2Proof/Laws/Reader.lean ====
section
/-! SUPPORT. The bit reader (40_bit_reader): each read moves the cursor only, what it can raise, and what it reads in terms
of `restBytes` and `restBits`. -/

namespace Sys2Proof.Machine

/-- The two states differ in the cursor only. -/
def MovesCursor (s t : State) : Prop := t = { s with cur := t.cur }

theorem MovesCursor.refl (s : State) : MovesCursor s s := rfl

theorem MovesCursor.of (s : State) (c : Cursor) : MovesCursor s { s with cur := c } := rfl

theorem MovesCursor.trans {s t u : State} (h : MovesCursor s t) (h' : MovesCursor t u) : MovesCursor s u := by
  unfold MovesCursor at *
  rw [h', h]

theorem MovesCursor.lat {s t : State} (h : MovesCursor s t) : t.lat = s.lat := by rw [h]
theorem MovesCursor.mem {s t : State} (h : MovesCursor s t) : t.mem = s.mem := by rw [h]
theorem MovesCursor.sizes {s t : State} (h : MovesCursor s t) : t.sizes = s.sizes := by rw [h]
theorem MovesCursor.outCount {s t : State} (h : MovesCursor s t) : t.outCount = s.outCount := by rw [h]
theorem MovesCursor.dyn {s t : State} (h : MovesCursor s t) : t.dyn = s.dyn := by rw [h]

theorem MovesCursor.tableReadable {s t : State} (h : MovesCursor s t) : tableReadable t ↔ tableReadable s := by
  unfold Machine.tableReadable; rw [h.lat]

/-! ### Frames and errors -/

theorem loadSegment_all {i : Nat} {s : State} (h : tableReadable s) (hi : i < s.lat.nseg.toNat) :
    loadSegment i s = .ok ()
      { s with
        cur := ⟨BitVec.ofNat 32 i, s.mem.readLe32 (s.lat.segtab.toNat + 8 * i),
          s.mem.readLe32 (s.lat.segtab.toNat + 8 * i + 4), s.cur.bit⟩ } := by
  unfold tableReadable at h
  unfold loadSegment
  rw [memReadLe32_ok _ (by omega), Run.bind_ok, memReadLe32_ok _ (by omega), Run.bind_ok]

theorem ensureByteIn_all (n : Nat) (s : State) :
    (ensureByteIn n s).All (¬ tableReadable s)
      (fun _ t => MovesCursor s t ∧ t.cur.rem ≠ 0 ∧ t.cur.bit = s.cur.bit)
      (fun e t => e = .truncatedInput ∧ MovesCursor s t) := by
  induction n generalizing s with
  | zero => exact ⟨rfl, .refl s⟩
  | succ n ih =>
    unfold ensureByteIn
    split
    · exact ⟨.refl s, ‹_›, rfl⟩
    split
    · exact ⟨rfl, .refl s⟩
    rename_i h
    by_cases ht : tableReadable s
    · rw [loadSegment_all ht (by omega), Run.bind_ok]
      refine (ih _).imp ?_ ?_ ?_
      · exact fun h' => absurd ht h'
      · rintro - t ⟨h1, h2, h3⟩; exact ⟨(MovesCursor.of s _).trans h1, h2, h3⟩
      · rintro e t ⟨h1, h2⟩; exact ⟨h1, (MovesCursor.of s _).trans h2⟩
    · have hload : (loadSegment (s.cur.seg.toNat + 1) s).All (¬ tableReadable s)
          (fun _ t => MovesCursor s t ∧ t.cur.bit = s.cur.bit) (fun _ _ => False) := by
        unfold loadSegment
        refine Run.All.bind ((memReadLe32_all _ s).imp (fun _ => ht) (fun _ _ h => h) (fun _ _ h => h)) ?_
        rintro a _ ⟨rfl, -⟩
        refine Run.All.bind ((memReadLe32_all _ _).imp (fun _ => ht) (fun _ _ h => h) (fun _ _ h => h)) ?_
        rintro b _ ⟨rfl, -⟩
        exact ⟨.of _ _, rfl⟩
      refine Run.All.bind (hload.imp id (fun _ _ h => h) (fun _ _ h => h.elim)) ?_
      rintro - t ⟨h1, h2⟩
      refine (ih t).imp ?_ ?_ ?_
      · exact fun _ => ht
      · rintro - u ⟨h3, h4, h5⟩; exact ⟨h1.trans h3, h4, h5.trans h2⟩
      · rintro e u ⟨h3, h4⟩; exact ⟨h3, h1.trans h4⟩

/-- Everything `ensure_byte` can do (R75): move the cursor onto a byte, keeping CUR_BIT, or raise TruncatedInput. -/
theorem ensureByte_all (s : State) :
    (ensureByte s).All (¬ tableReadable s)
      (fun _ t => MovesCursor s t ∧ t.cur.rem ≠ 0 ∧ t.cur.bit = s.cur.bit)
      (fun e t => e = .truncatedInput ∧ MovesCursor s t) := ensureByteIn_all _ s

theorem Cursor.nextBit_sound {c : Cursor} (h : c.rem ≠ 0) : c.nextBit.sound := by
  unfold Cursor.nextBit Cursor.nextByte Cursor.sound
  split
  · exact fun h' => absurd rfl h'
  · exact fun _ => h

/-- Everything `fetch_bit` can do (R76). -/
theorem fetchBit_all (s : State) :
    (fetchBit s).All (¬ tableReadable s) (fun _ t => MovesCursor s t ∧ t.cur.sound)
      (fun e t => e = .truncatedInput ∧ MovesCursor s t) := by
  unfold fetchBit
  refine Run.All.bind (ensureByte_all s) ?_
  rintro - t ⟨h1, h2, -⟩
  exact ⟨h1.trans (.of t _), Cursor.nextBit_sound h2⟩

/-- Everything `read_bits` can do (R77): an `n`-bit number, the cursor moved, or TruncatedInput. -/
theorem readBits_all (n : Nat) (s : State) :
    (readBits n s).All (¬ tableReadable s)
      (fun v t => MovesCursor s t ∧ v < 2 ^ n ∧ (s.cur.sound → t.cur.sound))
      (fun e t => e = .truncatedInput ∧ MovesCursor s t) := by
  induction n generalizing s with
  | zero => exact ⟨.refl s, by decide, id⟩
  | succ n ih =>
    unfold readBits
    refine Run.All.bind (fetchBit_all s) ?_
    rintro b t ⟨h1, h2⟩
    refine Run.All.bind (P := fun v u => MovesCursor s u ∧ v < 2 ^ n ∧ u.cur.sound)
      ((ih t).imp (fun h => by rwa [h1.tableReadable] at h) ?_ ?_) ?_
    · rintro v u ⟨h3, h4, h5⟩; exact ⟨h1.trans h3, h4, h5 h2⟩
    · rintro e u ⟨h3, h4⟩; exact ⟨h3, h1.trans h4⟩
    · rintro v u ⟨h3, h4, h5⟩
      refine ⟨h3, ?_, fun _ => h5⟩
      have : b.toNat ≤ 1 := by cases b <;> decide
      rw [pow_succ]; omega

/-- `align_to_byte` (R78) moves the cursor only and leaves it on a byte boundary. -/
theorem alignToByte_moves (s : State) : MovesCursor s (alignToByte s) ∧ (alignToByte s).cur.bit = 0 := by
  unfold alignToByte
  split
  · exact ⟨.refl s, ‹_›⟩
  · exact ⟨.of s _, rfl⟩

/-- Everything `read_byte` can do (R79). -/
theorem readByte_all (s : State) :
    (readByte s).All (¬ tableReadable s) (fun _ t => MovesCursor s t ∧ t.cur.bit = s.cur.bit)
      (fun e t => e = .truncatedInput ∧ MovesCursor s t) := by
  unfold readByte
  refine Run.All.bind (ensureByte_all s) ?_
  rintro - t ⟨h1, -, h3⟩
  exact ⟨h1.trans (.of t _), h3⟩

/-- Everything `read_bytes` can do (R80). -/
theorem readBytes_all (n : Nat) (s : State) :
    (readBytes n s).All (¬ tableReadable s)
      (fun bs t => MovesCursor s t ∧ t.cur.bit = s.cur.bit ∧ bs.length = n)
      (fun e t => e = .truncatedInput ∧ MovesCursor s t) := by
  induction n generalizing s with
  | zero => exact ⟨.refl s, rfl, rfl⟩
  | succ n ih =>
    unfold readBytes
    refine Run.All.bind (readByte_all s) ?_
    rintro b t ⟨h1, h2⟩
    refine Run.All.bind (P := fun bs u => MovesCursor s u ∧ u.cur.bit = s.cur.bit ∧ bs.length = n)
      ((ih t).imp (fun h => by rwa [h1.tableReadable] at h) ?_ ?_) ?_
    · rintro bs u ⟨h3, h4, h5⟩; exact ⟨h1.trans h3, h4.trans h2, h5⟩
    · rintro e u ⟨h3, h4⟩; exact ⟨h3, h1.trans h4⟩
    · rintro bs u ⟨h3, h4, h5⟩; exact ⟨h3, h4, by simp [h5]⟩

/-! ### The stream -/

theorem segmentAddrs_length (a : Word) (n : Nat) : (segmentAddrs a n).length = n := by
  induction n generalizing a with
  | zero => rfl
  | succ n ih => simp [segmentAddrs, ih]

theorem toNat_pred {w : Word} (h : w ≠ 0) : ∃ k, w.toNat = k + 1 ∧ (w - 1).toNat = k := by
  have h0 : w.toNat ≠ 0 := fun h' => h (BitVec.eq_of_toNat_eq h')
  have := w.isLt
  refine ⟨w.toNat - 1, by omega, ?_⟩
  rw [BitVec.toNat_sub]; simp; omega

/-- The cursor moved past its byte leaves the bytes after it. -/
theorem restAddrs_pass {s : State} (b : BitVec 3) (h : s.cur.rem ≠ 0) :
    restAddrs s = s.cur.addr.toNat ::
      restAddrs { s with cur := ⟨s.cur.seg, s.cur.addr + 1, s.cur.rem - 1, b⟩ } := by
  obtain ⟨k, hk, hk'⟩ := toNat_pred h
  unfold restAddrs
  simp only [hk, hk', segmentAddrs, List.cons_append]

/-- `ensure_byte` changes no byte of the stream that is left: it stops on the first one, or raises when there is none. -/
theorem ensureByteIn_rest (n : Nat) (s : State) (ht : tableReadable s) (hn : s.lat.nseg.toNat - s.cur.seg.toNat < n) :
    match restAddrs s with
    | [] => ∃ t, ensureByteIn n s = .raise .truncatedInput t ∧ MovesCursor s t
    | a :: as => ∃ c : Cursor, ensureByteIn n s = .ok () { s with cur := c } ∧ c.bit = s.cur.bit
        ∧ c.rem ≠ 0 ∧ c.addr.toNat = a ∧ restAddrs { s with cur := c } = a :: as := by
  induction n generalizing s with
  | zero => omega
  | succ n ih =>
    unfold ensureByteIn
    by_cases hr : s.cur.rem ≠ 0
    · rw [if_pos hr, restAddrs_pass 0 hr]
      exact ⟨s.cur, rfl, rfl, hr, rfl, restAddrs_pass 0 hr⟩
    · rw [if_neg hr]
      have hr0 : s.cur.rem = 0 := not_not.1 hr
      by_cases hs : s.lat.nseg.toNat ≤ s.cur.seg.toNat + 1
      · rw [if_pos hs]
        have : restAddrs s = [] := by
          unfold restAddrs
          rw [hr0, Nat.sub_eq_zero_of_le hs]; rfl
        rw [this]
        exact ⟨s, rfl, .refl s⟩
      · rw [if_neg hs, loadSegment_all ht (by omega), Run.bind_ok]
        have hlt : s.cur.seg.toNat + 1 < 2 ^ 32 := by have := s.lat.nseg.isLt; omega
        have hseg : (BitVec.ofNat 32 (s.cur.seg.toNat + 1)).toNat = s.cur.seg.toNat + 1 := by
          rw [BitVec.toNat_ofNat, Nat.mod_eq_of_lt hlt]
        have key : restAddrs
            { s with
              cur := ⟨BitVec.ofNat 32 (s.cur.seg.toNat + 1),
                s.mem.readLe32 (s.lat.segtab.toNat + 8 * (s.cur.seg.toNat + 1)),
                s.mem.readLe32 (s.lat.segtab.toNat + 8 * (s.cur.seg.toNat + 1) + 4), s.cur.bit⟩ } = restAddrs s := by
          unfold restAddrs
          obtain ⟨j, hj⟩ : ∃ j, s.lat.nseg.toNat - (s.cur.seg.toNat + 1) = j + 1 :=
            ⟨s.lat.nseg.toNat - (s.cur.seg.toNat + 1) - 1, by omega⟩
          have hj' : s.lat.nseg.toNat - (s.cur.seg.toNat + 1 + 1) = j := by omega
          simp only [hseg, hr0, hj, hj']
          simp [segmentAddrs, laterAddrs]
        generalize hu : ({ s with
          cur := ⟨BitVec.ofNat 32 (s.cur.seg.toNat + 1),
            s.mem.readLe32 (s.lat.segtab.toNat + 8 * (s.cur.seg.toNat + 1)),
            s.mem.readLe32 (s.lat.segtab.toNat + 8 * (s.cur.seg.toNat + 1) + 4), s.cur.bit⟩ } : State) = u at key
        have hlat : u.lat = s.lat := by rw [← hu]
        have hcs : u.cur.seg.toNat = s.cur.seg.toNat + 1 := by rw [← hu]; exact hseg
        have h1 := ih u (by unfold tableReadable; rw [hlat]; exact ht) (by rw [hlat, hcs]; omega)
        rw [key] at h1
        subst hu
        exact h1

theorem ensureByte_rest (s : State) (ht : tableReadable s) :
    match restAddrs s with
    | [] => ∃ t, ensureByte s = .raise .truncatedInput t ∧ MovesCursor s t
    | a :: as => ∃ c : Cursor, ensureByte s = .ok () { s with cur := c } ∧ c.bit = s.cur.bit
        ∧ c.rem ≠ 0 ∧ c.addr.toNat = a ∧ restAddrs { s with cur := c } = a :: as :=
  ensureByteIn_rest _ s ht (by omega)

/-- `read_byte` reads the byte at the next address of the stream (R79, R81). -/
theorem readByte_addrs {s : State} {a : Nat} {as : List Nat} (ht : tableReadable s) (h : restAddrs s = a :: as) :
    ∃ c : Cursor, readByte s = .ok (s.mem.read a) { s with cur := c } ∧ c.bit = s.cur.bit
      ∧ restAddrs { s with cur := c } = as := by
  have := ensureByte_rest s ht
  rw [h] at this
  obtain ⟨c, h1, h2, h3, h4, h5⟩ := this
  refine ⟨{ c with addr := c.addr + 1, rem := c.rem - 1 }, ?_, h2, ?_⟩
  · unfold readByte
    rw [h1, Run.bind_ok, ← h4]
  · have := restAddrs_pass (s := { s with cur := c }) c.bit h3
    rw [h5] at this
    exact (List.cons.inj this).2.symm

/-- `read_byte` reads the next byte of the stream (R79, R81). -/
theorem readByte_rest {s : State} {b : Byte} {bs : List Byte} (ht : tableReadable s) (h : restBytes s = b :: bs) :
    ∃ c : Cursor, readByte s = .ok b { s with cur := c } ∧ c.bit = s.cur.bit ∧ restBytes { s with cur := c } = bs := by
  unfold restBytes at h
  obtain ⟨a, as, ha, hb, hbs⟩ := List.map_eq_cons_iff.1 h
  obtain ⟨c, h1, h2, h3⟩ := readByte_addrs ht ha
  exact ⟨c, by rw [h1, hb], h2, by unfold restBytes; rw [h3]; exact hbs⟩

/-- `read_byte` at the end of the stream (R79, R81). -/
theorem readByte_end {s : State} (ht : tableReadable s) (h : restBytes s = []) :
    ∃ t, readByte s = .raise .truncatedInput t ∧ MovesCursor s t := by
  have := ensureByte_rest s ht
  rw [List.map_eq_nil_iff.1 h] at this
  obtain ⟨t, h1, h2⟩ := this
  exact ⟨t, by unfold readByte; rw [h1, Run.bind_raise], h2⟩

/-- `read_bytes` reads the next bytes of the stream (R80). -/
theorem readBytes_rest {n : Nat} {s : State} (ht : tableReadable s) (h : n ≤ (restBytes s).length) :
    ∃ c : Cursor, readBytes n s = .ok ((restBytes s).take n) { s with cur := c } ∧ c.bit = s.cur.bit
      ∧ restBytes { s with cur := c } = (restBytes s).drop n := by
  induction n generalizing s with
  | zero => exact ⟨s.cur, rfl, rfl, rfl⟩
  | succ n ih =>
    match hr : restBytes s with
    | [] => rw [hr] at h; simp at h
    | b :: bs =>
      obtain ⟨c, h1, h2, h3⟩ := readByte_rest ht hr
      have hlen : n ≤ (restBytes { s with cur := c }).length := by rw [h3]; rw [hr] at h; simpa using h
      obtain ⟨c', h4, h5, h6⟩ := ih (s := { s with cur := c }) ht hlen
      refine ⟨c', ?_, h5.trans h2, ?_⟩
      · unfold readBytes
        rw [h1, Run.bind_ok, h4, Run.bind_ok, h3]
        simp
      · rw [h3] at h6; simpa using h6

theorem byteBits_drop {i : Nat} (b : Byte) (h : i < 8) :
    (byteBits b).drop i = b.getLsbD i :: (byteBits b).drop (i + 1) := by
  rcases i with _ | _ | _ | _ | _ | _ | _ | _ | i <;> first | rfl | omega

theorem byteBits_length (b : Byte) : (byteBits b).length = 8 := rfl

/-- The bits left, byte by byte. -/
theorem restBits_cons {s : State} {b : Byte} {bs : List Byte} (h : restBytes s = b :: bs) :
    restBits s = b.getLsbD s.cur.bit.toNat :: ((byteBits b).drop (s.cur.bit.toNat + 1) ++ bs.flatMap byteBits) := by
  have hlt : s.cur.bit.toNat < 8 := s.cur.bit.isLt
  unfold restBits
  rw [h, List.flatMap_cons, List.drop_append_of_le_length (by rw [byteBits_length]; omega), byteBits_drop b hlt,
    List.cons_append]

theorem restBits_nil {s : State} (h : restBytes s = []) : restBits s = [] := by
  unfold restBits; rw [h]; simp

/-- `fetch_bit` reads the next bit of the stream (R76, R81). -/
theorem fetchBit_rest {s : State} {b : Bool} {bs : List Bool} (ht : tableReadable s) (h : restBits s = b :: bs) :
    ∃ c : Cursor, fetchBit s = .ok b { s with cur := c } ∧ restBits { s with cur := c } = bs := by
  match hr : restAddrs s with
  | [] => rw [restBits_nil (by unfold restBytes; rw [hr]; rfl)] at h; cases h
  | a :: as =>
    have he := ensureByte_rest s ht
    rw [hr] at he
    obtain ⟨c, h1, h2, h3, h4, h5⟩ := he
    have hb : restBytes s = s.mem.read a :: as.map s.mem.read := by unfold restBytes; rw [hr]; rfl
    rw [restBits_cons hb] at h
    injection h with hb hbs
    refine ⟨c.nextBit, ?_, ?_⟩
    · unfold fetchBit
      rw [h1, Run.bind_ok]
      simp only [h4, h2, hb]
    · have hlt : c.bit.toNat < 8 := c.bit.isLt
      rw [← hbs, ← h2]
      by_cases h7 : c.bit = 7
      · have : c.nextBit = ⟨c.seg, c.addr + 1, c.rem - 1, 0⟩ := by
          simp [Cursor.nextBit, h7, Cursor.nextByte]
        have hpass := restAddrs_pass (s := { s with cur := c }) 0 h3
        rw [h5] at hpass
        rw [this]
        unfold restBits restBytes
        rw [← (List.cons.inj hpass).2, h7]
        simp [byteBits]
      · have hnext : c.nextBit = { c with bit := c.bit + 1 } := by unfold Cursor.nextBit; rw [if_neg h7]
        have hne : c.bit.toNat ≠ 7 := fun hc => h7 (BitVec.eq_of_toNat_eq hc)
        have hbit : (c.bit + 1).toNat = c.bit.toNat + 1 := by
          rw [BitVec.toNat_add]; simp; omega
        have hrest : restBytes { s with cur := { c with bit := c.bit + 1 } } = s.mem.read a :: as.map s.mem.read := by
          have : restAddrs { s with cur := { c with bit := c.bit + 1 } } = a :: as := h5
          unfold restBytes
          rw [this]; rfl
        rw [hnext]
        unfold restBits
        rw [hrest, List.flatMap_cons, List.drop_append_of_le_length (by rw [byteBits_length]; simp only [hbit]; omega)]
        simp only [hbit]

/-- `fetch_bit` at the end of the stream (R76, R81). -/
theorem fetchBit_end {s : State} (ht : tableReadable s) (h : restBits s = []) :
    ∃ t, fetchBit s = .raise .truncatedInput t ∧ MovesCursor s t := by
  have hr : restAddrs s = [] := by
    match hr : restAddrs s with
    | [] => rfl
    | a :: as =>
      have hb : restBytes s = s.mem.read a :: as.map s.mem.read := by unfold restBytes; rw [hr]; rfl
      rw [restBits_cons hb] at h; cases h
  have he := ensureByte_rest s ht
  rw [hr] at he
  obtain ⟨t, h1, h2⟩ := he
  exact ⟨t, by unfold fetchBit; rw [h1, Run.bind_raise], h2⟩

/-- `read_bits` reads the next bits of the stream, the first one as bit 0 (R77). -/
theorem readBits_rest {n : Nat} {s : State} (h : bitsLeft n s) :
    ∃ c : Cursor, readBits n s = .ok (bitsValue ((restBits s).take n)) { s with cur := c }
      ∧ restBits { s with cur := c } = (restBits s).drop n := by
  obtain ⟨ht, hn⟩ := h
  induction n generalizing s with
  | zero => exact ⟨s.cur, rfl, rfl⟩
  | succ n ih =>
    match hr : restBits s with
    | [] => rw [hr] at hn; simp at hn
    | b :: bs =>
      obtain ⟨c, h1, h2⟩ := fetchBit_rest ht hr
      obtain ⟨c', h3, h4⟩ := ih (s := { s with cur := c }) ht (by rw [h2]; rw [hr] at hn; simpa using hn)
      refine ⟨c', ?_, by rw [h4, h2]; rfl⟩
      unfold readBits
      rw [h1, Run.bind_ok, h3, Run.bind_ok, h2]
      rfl

/-- `read_bits` when too few bits are left (R77). -/
theorem readBits_end {n : Nat} {s : State} (ht : tableReadable s) (h : (restBits s).length < n) :
    ∃ t, readBits n s = .raise .truncatedInput t ∧ MovesCursor s t := by
  induction n generalizing s with
  | zero => omega
  | succ n ih =>
    unfold readBits
    match hr : restBits s with
    | [] =>
      obtain ⟨t, h1, h2⟩ := fetchBit_end ht hr
      exact ⟨t, by rw [h1, Run.bind_raise], h2⟩
    | b :: bs =>
      obtain ⟨c, h1, h2⟩ := fetchBit_rest ht hr
      obtain ⟨t, h3, h4⟩ := ih (s := { s with cur := c }) ht (by rw [h2]; rw [hr] at h; simpa using h)
      exact ⟨t, by rw [h1, Run.bind_ok, h3, Run.bind_raise], (MovesCursor.of s c).trans h4⟩

theorem bitsValue_lt (l : List Bool) : bitsValue l < 2 ^ l.length := by
  induction l with
  | nil => simp [bitsValue]
  | cons b t ih =>
    have : b.toNat ≤ 1 := by cases b <;> decide
    simp only [bitsValue, List.length_cons, pow_succ]; omega

/-- `align_to_byte` skips the rest of the byte at the cursor (R78). -/
theorem alignToByte_rest {s : State} (h : s.cur.sound) : restBytes (alignToByte s) = alignedBytes s := by
  unfold alignToByte alignedBytes
  split
  · rfl
  · rename_i hb
    have hp := restAddrs_pass 0 (h hb)
    unfold restBytes
    rw [hp]; rfl

/-- Everything the block header's bits can do (R101): a 3-bit number, or TruncatedInput; BFINAL and the cursor may change. -/
theorem readBlockHeader_all (s : State) :
    (readBlockHeader s).All (¬ tableReadable s)
      (fun v t => t = { s with cur := t.cur, bfinal := t.bfinal } ∧ v < 8 ∧ (s.cur.sound → t.cur.sound))
      (fun e t => e = .truncatedInput ∧ t = { s with cur := t.cur, bfinal := t.bfinal }) := by
  unfold readBlockHeader
  refine Run.All.bind ((readBits_all 1 s).imp id (fun _ _ h => h) ?_) ?_
  · rintro e t ⟨h1, h2⟩
    unfold MovesCursor at h2
    exact ⟨h1, by rw [h2]⟩
  · rintro f t ⟨h1, h2, h3⟩
    have hr := h1.tableReadable
    unfold MovesCursor at h1
    refine Run.All.bind (P := fun v u => u = { s with cur := u.cur, bfinal := u.bfinal } ∧ v < 4 ∧ (s.cur.sound → u.cur.sound))
      ((readBits_all 2 { t with bfinal := BitVec.ofNat 1 f }).imp (fun h => by rwa [← hr]) ?_ ?_) ?_
    · rintro v u ⟨h4, h5, h6⟩
      unfold MovesCursor at h4
      exact ⟨by rw [h4, h1], h5, fun h => h6 (h3 h)⟩
    · rintro e u ⟨h4, h5⟩
      unfold MovesCursor at h5
      exact ⟨h4, by rw [h5, h1]⟩
    · rintro v u ⟨h4, h5, h6⟩
      exact ⟨h4, by omega, h6⟩

/-- The block header's three bits (R101): BFINAL, then BTYPE with its low bit first. -/
theorem readBlockHeader_rest {f lo hi : Bool} {rest : List Bool} {s : State} (ht : tableReadable s)
    (h : restBits s = f :: lo :: hi :: rest) :
    ∃ c : Cursor, readBlockHeader s =
        .ok (f.toNat + 2 * (lo.toNat + 2 * hi.toNat)) { s with cur := c, bfinal := BitVec.ofBool f }
      ∧ restBits { s with cur := c } = rest := by
  obtain ⟨c, h1, h2⟩ := readBits_rest (n := 1) ⟨ht, by rw [h]; simp⟩
  obtain ⟨c', h3, h4⟩ := readBits_rest (n := 2) (s := { s with cur := c, bfinal := BitVec.ofBool f })
    ⟨ht, by show 2 ≤ (restBits { s with cur := c }).length; rw [h2, h]; simp⟩
  have h5 : restBits { s with cur := c, bfinal := BitVec.ofBool f } = lo :: hi :: rest := by
    show restBits { s with cur := c } = _; rw [h2, h]; rfl
  refine ⟨c', ?_, ?_⟩
  · unfold readBlockHeader
    rw [h1, Run.bind_ok, h]
    have hf : BitVec.ofNat 1 (bitsValue ((f :: lo :: hi :: rest).take 1)) = BitVec.ofBool f := by cases f <;> rfl
    rw [hf, h3, Run.bind_ok, h5]
    simp [bitsValue]
  · show restBits { ({ s with cur := c, bfinal := BitVec.ofBool f } : State) with cur := c' } = rest
    rw [h4, h5]; rfl

/-- A block header cut short (R101): with one or two bits left BFINAL is written. -/
theorem readBlockHeader_end {s : State} (ht : tableReadable s) (h : (restBits s).length < 3) :
    ∃ c : Cursor, readBlockHeader s = .raise .truncatedInput
      { s with cur := c, bfinal := ((restBits s).head?.map BitVec.ofBool).getD s.bfinal } := by
  unfold readBlockHeader
  match hr : restBits s with
  | [] =>
    obtain ⟨t, h1, h2⟩ := readBits_end (n := 1) ht (by rw [hr]; simp)
    unfold MovesCursor at h2
    exact ⟨t.cur, by rw [h1, Run.bind_raise, h2]; rfl⟩
  | f :: bs =>
    rw [hr] at h
    obtain ⟨c, h1, h2⟩ := readBits_rest (n := 1) ⟨ht, by rw [hr]; simp⟩
    have hf : BitVec.ofNat 1 (bitsValue ((f :: bs).take 1)) = BitVec.ofBool f := by cases f <;> rfl
    obtain ⟨t, h3, h4⟩ := readBits_end (n := 2) (s := { s with cur := c, bfinal := BitVec.ofBool f }) ht (by
      show (restBits { s with cur := c }).length < 2
      rw [h2, hr]; simp at h ⊢; omega)
    unfold MovesCursor at h4
    exact ⟨t.cur, by rw [h1, Run.bind_ok, hr, hf, h3, Run.bind_raise, h4]; rfl⟩

end Sys2Proof.Machine
end

