-- ==== Sys2Proof/Laws/Huffman.lean ====
section
/-! SUPPORT. Canonical construction and Huffman decode (42_huffman R92 to R95): the shape of a built table, and everything
`decode` can do on any table and on a built one. -/

namespace Sys2Proof.Machine

theorem symbolsOfLength_length (l : Nat) (t : List Nat) (i : Nat) :
    (symbolsOfLength l t i).length = t.count l := by
  induction t generalizing i with
  | nil => rfl
  | cons x t ih =>
    unfold symbolsOfLength
    by_cases h : x = l
    · rw [if_pos h]; simp [ih, h]
    · rw [if_neg h, ih, List.count_cons_of_ne h]

theorem mem_symbolsOfLength {l v : Nat} {t : List Nat} {i : Nat} :
    v ∈ symbolsOfLength l t i ↔ i ≤ v ∧ t[v - i]? = some l := by
  induction t generalizing i with
  | nil => simp [symbolsOfLength]
  | cons x t ih =>
    unfold symbolsOfLength
    have key : ∀ v, (i + 1 ≤ v ∧ t[v - (i + 1)]? = some l) ↔ (i < v ∧ (x :: t)[v - i]? = some l) := by
      intro v
      constructor
      · rintro ⟨h1, h2⟩
        refine ⟨h1, ?_⟩
        rw [show v - i = (v - (i + 1)) + 1 by omega, List.getElem?_cons_succ]; exact h2
      · rintro ⟨h1, h2⟩
        refine ⟨h1, ?_⟩
        rw [show v - i = (v - (i + 1)) + 1 by omega, List.getElem?_cons_succ] at h2; exact h2
    split
    · rw [List.mem_cons, ih, key]
      constructor
      · rintro (rfl | ⟨h1, h2⟩)
        · simp_all
        · exact ⟨by omega, h2⟩
      · rintro ⟨h1, h2⟩
        rcases Nat.lt_or_eq_of_le h1 with h | h
        · exact .inr ⟨h, h2⟩
        · exact .inl h.symm
    · rename_i hx
      rw [ih, key]
      constructor
      · rintro ⟨h1, h2⟩; exact ⟨by omega, h2⟩
      · rintro ⟨h1, h2⟩
        rcases Nat.lt_or_eq_of_le h1 with h | h
        · exact ⟨h, h2⟩
        · subst h; simp_all

theorem symbolsOfLength_sorted (l : Nat) (t : List Nat) (i : Nat) :
    (symbolsOfLength l t i).Pairwise (· < ·) := by
  induction t generalizing i with
  | nil => simp [symbolsOfLength]
  | cons x t ih =>
    unfold symbolsOfLength
    split
    · exact List.pairwise_cons.2 ⟨fun v hv => (mem_symbolsOfLength.1 hv).1, ih _⟩
    · exact ih _

/-- The `j`-th symbol of a length is the one with `j` symbols of that length before it (R92, R94). -/
theorem symbolsOfLength_get {l v : Nat} {t : List Nat} (i : Nat) (h : t[v]? = some l) :
    (symbolsOfLength l t i)[(t.take v).count l]? = some (i + v) := by
  induction t generalizing i v with
  | nil => simp at h
  | cons x t ih =>
    unfold symbolsOfLength
    rcases v with _ | v
    · simp at h; simp [h]
    · rw [List.getElem?_cons_succ] at h
      have := ih (i + 1) h
      by_cases hx : x = l
      · rw [if_pos hx, List.take_succ_cons, List.count_cons, if_pos (by simp [hx]), List.getElem?_cons_succ, this]
        congr 1; omega
      · rw [if_neg hx, List.take_succ_cons, List.count_cons_of_ne hx, this]
        congr 1; omega

theorem sortedSymbols_prefix (lens : List Nat) {a b : Nat} (h : a ≤ b) :
    sortedSymbols lens a <+: sortedSymbols lens b := by
  induction b with
  | zero => rw [Nat.le_zero.1 h]
  | succ b ih =>
    rcases Nat.lt_or_eq_of_le h with h | h
    · exact (ih (by omega)).trans (List.prefix_append _ _)
    · rw [h]

theorem sortedSymbols_length (lens : List Nat) (l : Nat) :
    (sortedSymbols lens (l + 1)).length = (sortedSymbols lens l).length + lengthCount lens (l + 1) := by
  simp [sortedSymbols, symbolsOfLength_length, lengthCount]

theorem mem_sortedSymbols {lens : List Nat} {m v : Nat} :
    v ∈ sortedSymbols lens m ↔ ∃ l, 1 ≤ l ∧ l ≤ m ∧ lens[v]? = some l := by
  induction m with
  | zero => simp [sortedSymbols]
  | succ m ih =>
    rw [sortedSymbols, List.mem_append, ih, mem_symbolsOfLength]
    constructor
    · rintro (⟨l, h1, h2, h3⟩ | ⟨-, h⟩)
      · exact ⟨l, h1, by omega, h3⟩
      · exact ⟨m + 1, by omega, le_refl _, h⟩
    · rintro ⟨l, h1, h2, h3⟩
      rcases Nat.lt_or_eq_of_le h2 with h | rfl
      · exact .inl ⟨l, h1, by omega, h3⟩
      · exact .inr ⟨Nat.zero_le _, h3⟩

theorem sortedSymbols_lt {lens : List Nat} {m v : Nat} (h : v ∈ sortedSymbols lens m) : v < lens.length := by
  obtain ⟨l, -, -, h⟩ := mem_sortedSymbols.1 h
  exact (List.getElem?_eq_some_iff.1 h).1

theorem sortedSymbols_nodup (lens : List Nat) (m : Nat) : (sortedSymbols lens m).Nodup := by
  induction m with
  | zero => exact List.nodup_nil
  | succ m ih =>
    refine List.Nodup.append ih ((symbolsOfLength_sorted (m + 1) lens 0).imp fun h => Nat.ne_of_lt h) ?_
    intro v h1 h2
    obtain ⟨l, -, hl, h1⟩ := mem_sortedSymbols.1 h1
    have h2 := (mem_symbolsOfLength.1 h2).2
    rw [Nat.sub_zero, h1] at h2
    cases h2; omega

/-- No more symbols are placed than there are. -/
theorem sortedSymbols_le (lens : List Nat) (m : Nat) : (sortedSymbols lens m).length ≤ lens.length := by
  have h := ((sortedSymbols_nodup lens m).subperm (l₂ := List.range lens.length)
    fun v hv => List.mem_range.2 (sortedSymbols_lt hv)).length_le
  rwa [List.length_range] at h

/-! ### Built tables -/

/-- The widths of R33 hold every value that `build` makes. -/
structure TableShape.Fits (k : TableShape) : Prop where
  count : k.cap < 2 ^ k.countBits
  sym : k.cap ≤ 2 ^ k.symBits
  len : k.longest < 2 ^ k.lenBits

theorem llShape_fits : llShape.Fits := ⟨by decide, by decide, by decide⟩
theorem dtShape_fits : dtShape.Fits := ⟨by decide, by decide, by decide⟩
theorem cltShape_fits : cltShape.Fits := ⟨by decide, by decide, by decide⟩

theorem tableArray_getD {α : Type} (n : Nat) (f : Nat → α) (i : Nat) (x : α) :
    (tableArray n f).toList.getD i x = if i < n then f i else x := by
  rw [tableArray, Vector.toList_mk, List.getD_eq_getElem?_getD, List.getElem?_map]
  by_cases h : i < n
  · rw [List.getElem?_range h]; simp [h]
  · rw [List.getElem?_eq_none (by simp; omega)]; simp [h]

theorem lengthCount_le (lens : List Nat) (l : Nat) : lengthCount lens l ≤ lens.length := by
  unfold lengthCount; split
  · exact Nat.zero_le _
  · exact List.count_le_length

/-- `count[l]` of a built table (R92). -/
theorem build_countAt {k : TableShape} (hk : k.Fits) {lens : List Nat} (d l : Nat) (hn : lens.length ≤ k.cap) :
    (build k lens d).countAt l = if l ≤ k.longest then lengthCount lens l else 0 := by
  unfold HuffTable.countAt build
  dsimp only
  rw [tableArray_getD]
  by_cases h : l ≤ k.longest
  · rw [if_pos (by omega), if_pos h, BitVec.toNat_ofNat, Nat.mod_eq_of_lt]
    exact (lengthCount_le lens l).trans_lt (hn.trans_lt hk.count)
  · rw [if_neg (by omega), if_neg h]; simp

/-- The placed entries of `sym[]` of a built table (R92). -/
theorem build_symAt {k : TableShape} (hk : k.Fits) {lens : List Nat} (d : Nat) {i : Nat} (hn : lens.length ≤ k.cap)
    (hi : i < (sortedSymbols lens k.longest).length) :
    (sortedSymbols lens k.longest)[i]? = some ((build k lens d).symAt i) := by
  have hc := (sortedSymbols_le lens k.longest).trans hn
  have hs : (build k lens d).symAt i = (sortedSymbols lens k.longest).getD i 0 := by
    unfold HuffTable.symAt build
    dsimp only
    rw [tableArray_getD, if_pos (by omega), if_pos hi, BitVec.toNat_ofNat, Nat.mod_eq_of_lt]
    refine lt_of_lt_of_le ?_ (hn.trans hk.sym)
    rw [List.getD_eq_getElem?_getD, List.getElem?_eq_getElem hi, Option.getD_some]
    exact sortedSymbols_lt (List.getElem_mem hi)
  rw [hs, List.getD_eq_getElem?_getD, List.getElem?_eq_getElem hi, Option.getD_some]

/-- The symbols of length `l` stand in a built table after those of smaller lengths, in index order (R92). -/
theorem build_sym {k : TableShape} (hk : k.Fits) {l off : Nat} {lens : List Nat} (d : Nat) (hn : lens.length ≤ k.cap)
    (hl : l + 1 ≤ k.longest) (hoff : off < lengthCount lens (l + 1)) :
    (symbolsOfLength (l + 1) lens 0)[off]? = some ((build k lens d).symAt ((sortedSymbols lens l).length + off)) := by
  obtain ⟨tail, ht⟩ := sortedSymbols_prefix lens hl
  have hc : (symbolsOfLength (l + 1) lens 0).length = lengthCount lens (l + 1) := by
    rw [symbolsOfLength_length]; simp [lengthCount]
  have hs : sortedSymbols lens (l + 1) = sortedSymbols lens l ++ symbolsOfLength (l + 1) lens 0 := rfl
  rw [← build_symAt hk d hn]
  · rw [← ht, hs, List.append_assoc, List.getElem?_append_right (by omega), Nat.add_sub_cancel_left,
      List.getElem?_append_left (by omega)]
  · rw [← ht, hs]; simp; omega

/-! ### Decode -/

theorem huffDecodeFrom_all {k : TableShape} (t : HuffTable k) (j l code first base : Nat) (s : State) :
    (huffDecodeFrom t j l code first base s).All (¬ tableReadable s)
      (fun _ u => MovesCursor s u ∧ u.cur.sound)
      (fun e u => (e = .corruptHuffmanStream ∨ e = .truncatedInput) ∧ MovesCursor s u) := by
  induction j generalizing l code first base s with
  | zero => exact ⟨.inl rfl, .refl s⟩
  | succ j ih =>
    unfold huffDecodeFrom
    refine Run.All.bind ((fetchBit_all s).imp id (fun _ _ h => h)
      fun e u h => ⟨.inr h.1, h.2⟩) ?_
    rintro b u ⟨h1, h2⟩
    dsimp only
    split
    · exact ⟨h1, h2⟩
    · refine (ih _ _ _ _ u).imp (fun h => by rwa [h1.tableReadable] at h) ?_ ?_
      · rintro v w ⟨h3, h4⟩; exact ⟨h1.trans h3, h4⟩
      · rintro e w ⟨h3, h4⟩; exact ⟨h3, h1.trans h4⟩

/-- Everything `decode` can do on any table (R93): the cursor moved and a symbol, or CorruptHuffmanStream or TruncatedInput. -/
theorem huffDecode_all {k : TableShape} (t : HuffTable k) (s : State) :
    (huffDecode t s).All (¬ tableReadable s) (fun _ u => MovesCursor s u ∧ u.cur.sound)
      (fun e u => (e = .corruptHuffmanStream ∨ e = .truncatedInput) ∧ MovesCursor s u) :=
  huffDecodeFrom_all t _ _ _ _ _ s

theorem huffDecodeFrom_build {k : TableShape} (hk : k.Fits) {lens : List Nat} (d : Nat) (hn : lens.length ≤ k.cap)
    (j l code first : Nat) (s : State) :
    (huffDecodeFrom (build k lens d) j (l + 1) code first (sortedSymbols lens (min l k.longest)).length s).All
      (¬ tableReadable s) (fun v _ => v < lens.length) (fun _ _ => True) := by
  induction j generalizing l code first s with
  | zero => trivial
  | succ j ih =>
    unfold huffDecodeFrom
    refine Run.All.bind ((fetchBit_all s).imp id (fun _ _ h => h) fun _ _ _ => trivial) ?_
    rintro b u ⟨h1, -⟩
    dsimp only
    rw [build_countAt hk d (l + 1) hn]
    by_cases hl : l + 1 ≤ k.longest
    · rw [if_pos hl, show min l k.longest = l by omega]
      split
      · rename_i hoff
        have hmem := (mem_symbolsOfLength.1 (List.mem_of_getElem? (build_sym hk d hn hl hoff.2))).2
        exact (List.getElem?_eq_some_iff.1 hmem).1
      · rw [← sortedSymbols_length]
        have := ih (l + 1) ((code + b.toNat) * 2) ((first + (build k lens d).countAt (l + 1 - 1)) * 2) u
        rw [show min (l + 1) k.longest = l + 1 by omega] at this
        exact this.imp (fun h => by rwa [h1.tableReadable] at h) (fun _ _ h => h) fun _ _ h => h
    · rw [if_neg hl, if_neg (by omega)]
      have := ih (l + 1) ((code + b.toNat) * 2) ((first + (build k lens d).countAt (l + 1 - 1)) * 2) u
      rw [show min (l + 1) k.longest = k.longest by omega] at this
      rw [show min l k.longest = k.longest by omega, Nat.add_zero]
      exact this.imp (fun h => by rwa [h1.tableReadable] at h) (fun _ _ h => h) fun _ _ h => h

/-- Everything `decode` can do on a built table (R92, R93): the symbol it answers is one of the table's. -/
theorem huffDecode_build {k : TableShape} (hk : k.Fits) {lens : List Nat} (d : Nat) (hn : lens.length ≤ k.cap) (s : State) :
    (huffDecode (build k lens d) s).All (¬ tableReadable s)
      (fun v u => MovesCursor s u ∧ v < lens.length ∧ u.cur.sound)
      (fun e u => (e = .corruptHuffmanStream ∨ e = .truncatedInput) ∧ MovesCursor s u) := by
  have h := huffDecodeFrom_build hk d hn (build k lens d).max.toNat 0 0 0 s
  rw [show min 0 k.longest = 0 by omega] at h
  exact ((huffDecode_all (build k lens d) s).and h).imp (fun h => h.1)
    (fun v u h => ⟨h.1.1, h.2, h.1.2⟩) (fun e u h => h.1)

end Sys2Proof.Machine
end

