-- ==== Sys2Proof/Laws/Memory.lean ====
section
/-! SUPPORT. The laws of memory: a read after a write, the canonical form kept by every operation, and what filling a
region with free bytes changes. -/

namespace Sys2Proof.Machine

theorem lookupCell_eraseCell (a b : Nat) (l : List Host.Cell) :
    lookupCell a (eraseCell b l) = if a = b then Memory.unlisted else lookupCell a l := by
  induction l with
  | nil => simp [eraseCell, lookupCell]
  | cons c t ih =>
    by_cases hb : c.1 = b
    · simp only [eraseCell, hb, if_true, ih, lookupCell]
      by_cases h : a = b
      · simp [h]
      · simp [h, Ne.symm h]
    · simp only [eraseCell, hb, if_false, lookupCell, ih]
      by_cases hc : c.1 = a
      · have : a ≠ b := fun h => hb (hc.trans h)
        simp [hc, this]
      · simp [hc]

theorem lookupCell_insertCell (a b : Nat) (v : Byte) (l : List Host.Cell) :
    lookupCell a (insertCell b v (eraseCell b l)) = if a = b then v else lookupCell a l := by
  have key : ∀ l : List Host.Cell, (∀ c ∈ l, c.1 ≠ b) →
      lookupCell a (insertCell b v l) = if a = b then v else lookupCell a l := by
    intro l hl
    induction l with
    | nil => simp [insertCell, lookupCell, eq_comm]
    | cons c t ih =>
      have hc := hl c (by simp)
      unfold insertCell
      split
      · simp [lookupCell, eq_comm]
      · simp only [lookupCell, ih fun d hd => hl d (by simp [hd])]
        by_cases h : a = b
        · subst h; simp [hc]
        · simp [h]
  have herase : ∀ l : List Host.Cell, ∀ c ∈ eraseCell b l, c.1 ≠ b := by
    intro l
    induction l with
    | nil => simp [eraseCell]
    | cons c t ih =>
      unfold eraseCell
      split
      · exact ih
      · intro d hd
        rcases List.mem_cons.1 hd with rfl | hd
        · assumption
        · exact ih d hd
  rw [key _ (herase l), lookupCell_eraseCell]
  split <;> rfl

/-- A read after a write: the value written at the address written, the old value everywhere else. -/
theorem Memory.read_write (m : Memory) (a b : Nat) (v : Byte) :
    (m.write b v).read a = if a = b then v else m.read a := by
  unfold Memory.write Memory.read
  split
  · rw [lookupCell_eraseCell]; simp_all
  · rw [lookupCell_insertCell]

@[simp] theorem Memory.read_write_same (m : Memory) (a : Nat) (v : Byte) : (m.write a v).read a = v := by
  simp [Memory.read_write]

theorem Memory.read_write_other (m : Memory) {a b : Nat} (v : Byte) (h : a ≠ b) :
    (m.write b v).read a = m.read a := by
  simp [Memory.read_write, h]

theorem mem_eraseCell {c : Host.Cell} {a : Nat} {l : List Host.Cell} :
    c ∈ eraseCell a l ↔ c ∈ l ∧ c.1 ≠ a := by
  induction l with
  | nil => simp [eraseCell]
  | cons d t ih =>
    unfold eraseCell
    split
    · rename_i h
      rw [ih, List.mem_cons]
      constructor
      · rintro ⟨h1, h2⟩; exact ⟨.inr h1, h2⟩
      · rintro ⟨rfl | h1, h2⟩
        · exact absurd h h2
        · exact ⟨h1, h2⟩
    · rename_i h
      rw [List.mem_cons, List.mem_cons, ih]
      constructor
      · rintro (rfl | ⟨h1, h2⟩)
        · exact ⟨.inl rfl, h⟩
        · exact ⟨.inr h1, h2⟩
      · rintro ⟨rfl | h1, h2⟩
        · exact .inl rfl
        · exact .inr ⟨h1, h2⟩

theorem eraseCell_sublist (a : Nat) (l : List Host.Cell) : (eraseCell a l).Sublist l := by
  induction l with
  | nil => exact List.Sublist.slnil
  | cons c t ih =>
    unfold eraseCell
    split
    · exact ih.cons _
    · exact ih.cons_cons _

theorem mem_insertCell {c : Host.Cell} {a : Nat} {v : Byte} {l : List Host.Cell} :
    c ∈ insertCell a v l ↔ c = (a, v) ∨ c ∈ l := by
  induction l with
  | nil => simp [insertCell]
  | cons d t ih =>
    unfold insertCell
    split
    · simp
    · simp only [List.mem_cons, ih]
      tauto

theorem insertCell_pairwise {a : Nat} {v : Byte} {l : List Host.Cell}
    (h : l.Pairwise fun c d => c.1 < d.1) (ha : ∀ c ∈ l, c.1 ≠ a) :
    (insertCell a v l).Pairwise fun c d => c.1 < d.1 := by
  induction l with
  | nil => simp [insertCell]
  | cons d t ih =>
    have ht := List.pairwise_cons.1 h
    unfold insertCell
    split
    · rename_i hlt
      refine List.pairwise_cons.2 ⟨fun c hc => ?_, h⟩
      rcases List.mem_cons.1 hc with rfl | hc
      · exact hlt
      · exact lt_trans hlt (ht.1 c hc)
    · rename_i hge
      refine List.pairwise_cons.2 ⟨fun c hc => ?_, ih ht.2 fun c hc => ha c (by simp [hc])⟩
      rcases mem_insertCell.1 hc with rfl | hc
      · exact lt_of_le_of_ne (not_lt.1 hge) (ha d (by simp))
      · exact ht.1 c hc

/-- A write inside memory keeps the canonical form. -/
theorem Memory.write_wf {m : Memory} {a : Nat} (v : Byte) (h : m.wf) (ha : a < memBytes) : (m.write a v).wf := by
  have he : ∀ c ∈ eraseCell a m.cells, c ∈ m.cells ∧ c.1 ≠ a := fun c hc => mem_eraseCell.1 hc
  unfold Memory.write
  split
  · exact ⟨h.1.sublist (eraseCell_sublist a m.cells), fun c hc => h.2 c (he c hc).1⟩
  · rename_i hv
    refine ⟨insertCell_pairwise (h.1.sublist (eraseCell_sublist a m.cells)) fun c hc => (he c hc).2, fun c hc => ?_⟩
    rcases mem_insertCell.1 hc with rfl | hc
    · exact ⟨ha, hv⟩
    · exact h.2 c (he c hc).1

/-- Filling a region with free bytes keeps the canonical form. -/
theorem Memory.fillFree_wf {m : Memory} (h : m.wf) (base d n : Nat) : (m.fillFree base d n).wf := by
  induction n with
  | zero => exact h
  | succ n ih =>
    unfold Memory.fillFree
    split
    · exact Memory.write_wf _ ih ‹_›
    · exact ih

/-- What filling a region with free bytes changes: the bytes of the region that lie in memory, and no other. -/
theorem Memory.read_fillFree (m : Memory) (base d n a : Nat) :
    (m.fillFree base d n).read a =
      if base ≤ a ∧ a < base + n ∧ a < memBytes then Config.freeByte (d + (a - base)) else m.read a := by
  induction n with
  | zero => simp [Memory.fillFree]; omega
  | succ n ih =>
    unfold Memory.fillFree
    split
    · rw [Memory.read_write, ih]
      by_cases h : a = base + n
      · subst h
        rw [if_pos rfl, if_pos ⟨by omega, by omega, ‹_›⟩]
        congr 2; omega
      · rw [if_neg h]
        by_cases h' : base ≤ a ∧ a < base + n ∧ a < memBytes
        · rw [if_pos h', if_pos ⟨h'.1, by omega, h'.2.2⟩]
        · rw [if_neg h', if_neg (by omega)]
    · rw [ih]
      by_cases h' : base ≤ a ∧ a < base + n ∧ a < memBytes
      · rw [if_pos h', if_pos ⟨h'.1, by omega, h'.2.2⟩]
      · rw [if_neg h', if_neg (by omega)]

/-- A word read sees a write only at its four bytes. -/
theorem Memory.readLe32_write {m : Memory} {a b : Nat} (v : Byte) (h : b < a ∨ a + 3 < b) :
    (m.write b v).readLe32 a = m.readLe32 a := by
  unfold Memory.readLe32
  rw [Memory.read_write_other, Memory.read_write_other, Memory.read_write_other, Memory.read_write_other] <;> omega

/-- The reset memory has the canonical form. -/
theorem reset_memory_wf : State.reset.mem.wf := by
  simp [State.reset, Memory.wf]

end Sys2Proof.Machine
end

