-- ==== Sys2Proof/Laws/State.lean ====
section
/-! SUPPORT. One lemma per field per update of State: what each whole-state operation leaves in each field. -/

namespace Sys2Proof.Machine

/-! ### `goto` -/

@[simp] theorem goto_st (st : EngineState) (s : State) : (goto st s).st = st := rfl
@[simp] theorem goto_irqEn (st : EngineState) (s : State) : (goto st s).irqEn = s.irqEn := rfl
@[simp] theorem goto_cfg (st : EngineState) (s : State) : (goto st s).cfg = s.cfg := rfl
@[simp] theorem goto_sizes (st : EngineState) (s : State) : (goto st s).sizes = s.sizes := rfl
@[simp] theorem goto_outCount (st : EngineState) (s : State) : (goto st s).outCount = s.outCount := rfl
@[simp] theorem goto_blockCount (st : EngineState) (s : State) : (goto st s).blockCount = s.blockCount := rfl
@[simp] theorem goto_cur (st : EngineState) (s : State) : (goto st s).cur = s.cur := rfl
@[simp] theorem goto_lat (st : EngineState) (s : State) : (goto st s).lat = s.lat := rfl
@[simp] theorem goto_bfinal (st : EngineState) (s : State) : (goto st s).bfinal = s.bfinal := rfl
@[simp] theorem goto_btype (st : EngineState) (s : State) : (goto st s).btype = s.btype := rfl
@[simp] theorem goto_ll (st : EngineState) (s : State) : (goto st s).ll = s.ll := rfl
@[simp] theorem goto_dt (st : EngineState) (s : State) : (goto st s).dt = s.dt := rfl
@[simp] theorem goto_clt (st : EngineState) (s : State) : (goto st s).clt = s.clt := rfl
@[simp] theorem goto_dyn (st : EngineState) (s : State) : (goto st s).dyn = s.dyn := rfl
@[simp] theorem goto_storedRem (st : EngineState) (s : State) : (goto st s).storedRem = s.storedRem := rfl
@[simp] theorem goto_copyLen (st : EngineState) (s : State) : (goto st s).copyLen = s.copyLen := rfl
@[simp] theorem goto_copyDist (st : EngineState) (s : State) : (goto st s).copyDist = s.copyDist := rfl
@[simp] theorem goto_row (st : EngineState) (s : State) : (goto st s).row = s.row := rfl
@[simp] theorem goto_col (st : EngineState) (s : State) : (goto st s).col = s.col := rfl
@[simp] theorem goto_ft (st : EngineState) (s : State) : (goto st s).ft = s.ft := rfl
@[simp] theorem goto_errCode (st : EngineState) (s : State) : (goto st s).errCode = s.errCode := rfl
@[simp] theorem goto_errState (st : EngineState) (s : State) : (goto st s).errState = s.errState := rfl
@[simp] theorem goto_mem (st : EngineState) (s : State) : (goto st s).mem = s.mem := rfl
@[simp] theorem goto_phase (st : EngineState) (s : State) : (goto st s).phase = .boundary := rfl
@[simp] theorem goto_draws (st : EngineState) (s : State) : (goto st s).draws = s.draws := rfl
@[simp] theorem goto_busRdata (st : EngineState) (s : State) : (goto st s).busRdata = s.busRdata := rfl
@[simp] theorem goto_hostQueue (st : EngineState) (s : State) : (goto st s).hostQueue = s.hostQueue := rfl
@[simp] theorem goto_loan (st : EngineState) (s : State) : (goto st s).loan = s.loan := rfl
@[simp] theorem goto_job (st : EngineState) (s : State) : (goto st s).job = s.job := rfl

/-! ### `popHost` -/

@[simp] theorem popHost_st (s : State) : (popHost s).st = s.st := rfl
@[simp] theorem popHost_irqEn (s : State) : (popHost s).irqEn = s.irqEn := rfl
@[simp] theorem popHost_cfg (s : State) : (popHost s).cfg = s.cfg := rfl
@[simp] theorem popHost_sizes (s : State) : (popHost s).sizes = s.sizes := rfl
@[simp] theorem popHost_outCount (s : State) : (popHost s).outCount = s.outCount := rfl
@[simp] theorem popHost_blockCount (s : State) : (popHost s).blockCount = s.blockCount := rfl
@[simp] theorem popHost_cur (s : State) : (popHost s).cur = s.cur := rfl
@[simp] theorem popHost_lat (s : State) : (popHost s).lat = s.lat := rfl
@[simp] theorem popHost_bfinal (s : State) : (popHost s).bfinal = s.bfinal := rfl
@[simp] theorem popHost_btype (s : State) : (popHost s).btype = s.btype := rfl
@[simp] theorem popHost_ll (s : State) : (popHost s).ll = s.ll := rfl
@[simp] theorem popHost_dt (s : State) : (popHost s).dt = s.dt := rfl
@[simp] theorem popHost_clt (s : State) : (popHost s).clt = s.clt := rfl
@[simp] theorem popHost_dyn (s : State) : (popHost s).dyn = s.dyn := rfl
@[simp] theorem popHost_storedRem (s : State) : (popHost s).storedRem = s.storedRem := rfl
@[simp] theorem popHost_copyLen (s : State) : (popHost s).copyLen = s.copyLen := rfl
@[simp] theorem popHost_copyDist (s : State) : (popHost s).copyDist = s.copyDist := rfl
@[simp] theorem popHost_row (s : State) : (popHost s).row = s.row := rfl
@[simp] theorem popHost_col (s : State) : (popHost s).col = s.col := rfl
@[simp] theorem popHost_ft (s : State) : (popHost s).ft = s.ft := rfl
@[simp] theorem popHost_errCode (s : State) : (popHost s).errCode = s.errCode := rfl
@[simp] theorem popHost_errState (s : State) : (popHost s).errState = s.errState := rfl
@[simp] theorem popHost_mem (s : State) : (popHost s).mem = s.mem := rfl
@[simp] theorem popHost_phase (s : State) : (popHost s).phase = s.phase := rfl
@[simp] theorem popHost_draws (s : State) : (popHost s).draws = s.draws := rfl
@[simp] theorem popHost_busRdata (s : State) : (popHost s).busRdata = s.busRdata := rfl
@[simp] theorem popHost_hostQueue (s : State) : (popHost s).hostQueue = s.hostQueue.tail := rfl
@[simp] theorem popHost_loan (s : State) : (popHost s).loan = s.loan := rfl
@[simp] theorem popHost_job (s : State) : (popHost s).job = s.job := rfl

/-! ### `enterError` -/

@[simp] theorem enterError_st (e : ErrorCode) (s : State) : (enterError e s).st = .error := rfl
@[simp] theorem enterError_irqEn (e : ErrorCode) (s : State) : (enterError e s).irqEn = s.irqEn := rfl
@[simp] theorem enterError_cfg (e : ErrorCode) (s : State) : (enterError e s).cfg = s.cfg := rfl
@[simp] theorem enterError_sizes (e : ErrorCode) (s : State) : (enterError e s).sizes = s.sizes := rfl
@[simp] theorem enterError_outCount (e : ErrorCode) (s : State) : (enterError e s).outCount = Config.freeWord s.draws := rfl
@[simp] theorem enterError_blockCount (e : ErrorCode) (s : State) : (enterError e s).blockCount = Config.freeWord (s.draws + 5) := rfl
@[simp] theorem enterError_cur (e : ErrorCode) (s : State) : (enterError e s).cur = ⟨Config.freeWord (s.draws + 1), Config.freeWord (s.draws + 2),
      Config.freeWord (s.draws + 3), (Config.freeWord (s.draws + 4)).setWidth 3⟩ := rfl
@[simp] theorem enterError_lat (e : ErrorCode) (s : State) : (enterError e s).lat = s.lat := rfl
@[simp] theorem enterError_bfinal (e : ErrorCode) (s : State) : (enterError e s).bfinal = s.bfinal := rfl
@[simp] theorem enterError_btype (e : ErrorCode) (s : State) : (enterError e s).btype = s.btype := rfl
@[simp] theorem enterError_ll (e : ErrorCode) (s : State) : (enterError e s).ll = s.ll := rfl
@[simp] theorem enterError_dt (e : ErrorCode) (s : State) : (enterError e s).dt = s.dt := rfl
@[simp] theorem enterError_clt (e : ErrorCode) (s : State) : (enterError e s).clt = s.clt := rfl
@[simp] theorem enterError_dyn (e : ErrorCode) (s : State) : (enterError e s).dyn = s.dyn := rfl
@[simp] theorem enterError_storedRem (e : ErrorCode) (s : State) : (enterError e s).storedRem = s.storedRem := rfl
@[simp] theorem enterError_copyLen (e : ErrorCode) (s : State) : (enterError e s).copyLen = s.copyLen := rfl
@[simp] theorem enterError_copyDist (e : ErrorCode) (s : State) : (enterError e s).copyDist = s.copyDist := rfl
@[simp] theorem enterError_row (e : ErrorCode) (s : State) : (enterError e s).row = s.row := rfl
@[simp] theorem enterError_col (e : ErrorCode) (s : State) : (enterError e s).col = s.col := rfl
@[simp] theorem enterError_ft (e : ErrorCode) (s : State) : (enterError e s).ft = s.ft := rfl
@[simp] theorem enterError_errCode (e : ErrorCode) (s : State) : (enterError e s).errCode = e := rfl
@[simp] theorem enterError_errState (e : ErrorCode) (s : State) : (enterError e s).errState = s.st := rfl
@[simp] theorem enterError_mem (e : ErrorCode) (s : State) : (enterError e s).mem = s.cloudBuffers := rfl
@[simp] theorem enterError_phase (e : ErrorCode) (s : State) : (enterError e s).phase = .boundary := rfl
@[simp] theorem enterError_draws (e : ErrorCode) (s : State) : (enterError e s).draws = s.draws + 6 + s.sizes.workSize.toNat + s.sizes.outSize.toNat := rfl
@[simp] theorem enterError_busRdata (e : ErrorCode) (s : State) : (enterError e s).busRdata = s.busRdata := rfl
@[simp] theorem enterError_hostQueue (e : ErrorCode) (s : State) : (enterError e s).hostQueue = s.hostQueue := rfl
@[simp] theorem enterError_loan (e : ErrorCode) (s : State) : (enterError e s).loan = s.loan := rfl
@[simp] theorem enterError_job (e : ErrorCode) (s : State) : (enterError e s).job = s.job := rfl

/-! ### `resetBlock`: what stays; every other field is that of `State.reset` -/

@[simp] theorem resetBlock_st (s : State) : (resetBlock s).st = State.reset.st := rfl
@[simp] theorem resetBlock_irqEn (s : State) : (resetBlock s).irqEn = State.reset.irqEn := rfl
@[simp] theorem resetBlock_cfg (s : State) : (resetBlock s).cfg = State.reset.cfg := rfl
@[simp] theorem resetBlock_sizes (s : State) : (resetBlock s).sizes = State.reset.sizes := rfl
@[simp] theorem resetBlock_outCount (s : State) : (resetBlock s).outCount = State.reset.outCount := rfl
@[simp] theorem resetBlock_blockCount (s : State) : (resetBlock s).blockCount = State.reset.blockCount := rfl
@[simp] theorem resetBlock_cur (s : State) : (resetBlock s).cur = State.reset.cur := rfl
@[simp] theorem resetBlock_lat (s : State) : (resetBlock s).lat = State.reset.lat := rfl
@[simp] theorem resetBlock_bfinal (s : State) : (resetBlock s).bfinal = State.reset.bfinal := rfl
@[simp] theorem resetBlock_btype (s : State) : (resetBlock s).btype = State.reset.btype := rfl
@[simp] theorem resetBlock_ll (s : State) : (resetBlock s).ll = State.reset.ll := rfl
@[simp] theorem resetBlock_dt (s : State) : (resetBlock s).dt = State.reset.dt := rfl
@[simp] theorem resetBlock_clt (s : State) : (resetBlock s).clt = State.reset.clt := rfl
@[simp] theorem resetBlock_dyn (s : State) : (resetBlock s).dyn = State.reset.dyn := rfl
@[simp] theorem resetBlock_storedRem (s : State) : (resetBlock s).storedRem = State.reset.storedRem := rfl
@[simp] theorem resetBlock_copyLen (s : State) : (resetBlock s).copyLen = State.reset.copyLen := rfl
@[simp] theorem resetBlock_copyDist (s : State) : (resetBlock s).copyDist = State.reset.copyDist := rfl
@[simp] theorem resetBlock_row (s : State) : (resetBlock s).row = State.reset.row := rfl
@[simp] theorem resetBlock_col (s : State) : (resetBlock s).col = State.reset.col := rfl
@[simp] theorem resetBlock_ft (s : State) : (resetBlock s).ft = State.reset.ft := rfl
@[simp] theorem resetBlock_errCode (s : State) : (resetBlock s).errCode = State.reset.errCode := rfl
@[simp] theorem resetBlock_errState (s : State) : (resetBlock s).errState = State.reset.errState := rfl
@[simp] theorem resetBlock_mem (s : State) : (resetBlock s).mem = if s.busy then s.cloudBuffers else s.mem := rfl
@[simp] theorem resetBlock_phase (s : State) : (resetBlock s).phase = State.reset.phase := rfl
@[simp] theorem resetBlock_draws (s : State) : (resetBlock s).draws = if s.busy then s.draws + s.sizes.workSize.toNat + s.sizes.outSize.toNat else s.draws := rfl
@[simp] theorem resetBlock_busRdata (s : State) : (resetBlock s).busRdata = s.busRdata := rfl
@[simp] theorem resetBlock_hostQueue (s : State) : (resetBlock s).hostQueue = s.hostQueue := rfl
@[simp] theorem resetBlock_loan (s : State) : (resetBlock s).loan = State.reset.loan := rfl
@[simp] theorem resetBlock_job (s : State) : (resetBlock s).job = s.job := rfl

/-! ### `acceptStart` -/

@[simp] theorem acceptStart_st (s : State) : (acceptStart s).st = .configCheck := rfl
@[simp] theorem acceptStart_irqEn (s : State) : (acceptStart s).irqEn = s.irqEn := rfl
@[simp] theorem acceptStart_cfg (s : State) : (acceptStart s).cfg = s.cfg := rfl
@[simp] theorem acceptStart_sizes (s : State) : (acceptStart s).sizes = ⟨0, 0, 0⟩ := rfl
@[simp] theorem acceptStart_outCount (s : State) : (acceptStart s).outCount = 0 := rfl
@[simp] theorem acceptStart_blockCount (s : State) : (acceptStart s).blockCount = 0 := rfl
@[simp] theorem acceptStart_cur (s : State) : (acceptStart s).cur = s.cur := rfl
@[simp] theorem acceptStart_lat (s : State) : (acceptStart s).lat = s.lat := rfl
@[simp] theorem acceptStart_bfinal (s : State) : (acceptStart s).bfinal = s.bfinal := rfl
@[simp] theorem acceptStart_btype (s : State) : (acceptStart s).btype = s.btype := rfl
@[simp] theorem acceptStart_ll (s : State) : (acceptStart s).ll = s.ll := rfl
@[simp] theorem acceptStart_dt (s : State) : (acceptStart s).dt = s.dt := rfl
@[simp] theorem acceptStart_clt (s : State) : (acceptStart s).clt = s.clt := rfl
@[simp] theorem acceptStart_dyn (s : State) : (acceptStart s).dyn = s.dyn := rfl
@[simp] theorem acceptStart_storedRem (s : State) : (acceptStart s).storedRem = s.storedRem := rfl
@[simp] theorem acceptStart_copyLen (s : State) : (acceptStart s).copyLen = s.copyLen := rfl
@[simp] theorem acceptStart_copyDist (s : State) : (acceptStart s).copyDist = s.copyDist := rfl
@[simp] theorem acceptStart_row (s : State) : (acceptStart s).row = s.row := rfl
@[simp] theorem acceptStart_col (s : State) : (acceptStart s).col = s.col := rfl
@[simp] theorem acceptStart_ft (s : State) : (acceptStart s).ft = s.ft := rfl
@[simp] theorem acceptStart_errCode (s : State) : (acceptStart s).errCode = .noError := rfl
@[simp] theorem acceptStart_errState (s : State) : (acceptStart s).errState = .idle := rfl
@[simp] theorem acceptStart_mem (s : State) : (acceptStart s).mem = s.mem := rfl
@[simp] theorem acceptStart_phase (s : State) : (acceptStart s).phase = .boundary := rfl
@[simp] theorem acceptStart_draws (s : State) : (acceptStart s).draws = s.draws := rfl
@[simp] theorem acceptStart_busRdata (s : State) : (acceptStart s).busRdata = s.busRdata := rfl
@[simp] theorem acceptStart_hostQueue (s : State) : (acceptStart s).hostQueue = s.hostQueue := rfl
@[simp] theorem acceptStart_loan (s : State) : (acceptStart s).loan = some ((s.loan.map (withLent s)).getD .empty) := rfl
@[simp] theorem acceptStart_job (s : State) : (acceptStart s).job = s.job := rfl

/-! ### `latchBlock` -/

@[simp] theorem latchBlock_st (f : BitVec 1) (t : BitVec 2) (s : State) : (latchBlock f t s).st = s.st := rfl
@[simp] theorem latchBlock_irqEn (f : BitVec 1) (t : BitVec 2) (s : State) : (latchBlock f t s).irqEn = s.irqEn := rfl
@[simp] theorem latchBlock_cfg (f : BitVec 1) (t : BitVec 2) (s : State) : (latchBlock f t s).cfg = s.cfg := rfl
@[simp] theorem latchBlock_sizes (f : BitVec 1) (t : BitVec 2) (s : State) : (latchBlock f t s).sizes = s.sizes := rfl
@[simp] theorem latchBlock_outCount (f : BitVec 1) (t : BitVec 2) (s : State) : (latchBlock f t s).outCount = s.outCount := rfl
@[simp] theorem latchBlock_blockCount (f : BitVec 1) (t : BitVec 2) (s : State) : (latchBlock f t s).blockCount = s.blockCount + 1 := rfl
@[simp] theorem latchBlock_cur (f : BitVec 1) (t : BitVec 2) (s : State) : (latchBlock f t s).cur = s.cur := rfl
@[simp] theorem latchBlock_lat (f : BitVec 1) (t : BitVec 2) (s : State) : (latchBlock f t s).lat = s.lat := rfl
@[simp] theorem latchBlock_bfinal (f : BitVec 1) (t : BitVec 2) (s : State) : (latchBlock f t s).bfinal = f := rfl
@[simp] theorem latchBlock_btype (f : BitVec 1) (t : BitVec 2) (s : State) : (latchBlock f t s).btype = t := rfl
@[simp] theorem latchBlock_ll (f : BitVec 1) (t : BitVec 2) (s : State) : (latchBlock f t s).ll = s.ll := rfl
@[simp] theorem latchBlock_dt (f : BitVec 1) (t : BitVec 2) (s : State) : (latchBlock f t s).dt = s.dt := rfl
@[simp] theorem latchBlock_clt (f : BitVec 1) (t : BitVec 2) (s : State) : (latchBlock f t s).clt = s.clt := rfl
@[simp] theorem latchBlock_dyn (f : BitVec 1) (t : BitVec 2) (s : State) : (latchBlock f t s).dyn = s.dyn := rfl
@[simp] theorem latchBlock_storedRem (f : BitVec 1) (t : BitVec 2) (s : State) : (latchBlock f t s).storedRem = s.storedRem := rfl
@[simp] theorem latchBlock_copyLen (f : BitVec 1) (t : BitVec 2) (s : State) : (latchBlock f t s).copyLen = s.copyLen := rfl
@[simp] theorem latchBlock_copyDist (f : BitVec 1) (t : BitVec 2) (s : State) : (latchBlock f t s).copyDist = s.copyDist := rfl
@[simp] theorem latchBlock_row (f : BitVec 1) (t : BitVec 2) (s : State) : (latchBlock f t s).row = s.row := rfl
@[simp] theorem latchBlock_col (f : BitVec 1) (t : BitVec 2) (s : State) : (latchBlock f t s).col = s.col := rfl
@[simp] theorem latchBlock_ft (f : BitVec 1) (t : BitVec 2) (s : State) : (latchBlock f t s).ft = s.ft := rfl
@[simp] theorem latchBlock_errCode (f : BitVec 1) (t : BitVec 2) (s : State) : (latchBlock f t s).errCode = s.errCode := rfl
@[simp] theorem latchBlock_errState (f : BitVec 1) (t : BitVec 2) (s : State) : (latchBlock f t s).errState = s.errState := rfl
@[simp] theorem latchBlock_mem (f : BitVec 1) (t : BitVec 2) (s : State) : (latchBlock f t s).mem = s.mem := rfl
@[simp] theorem latchBlock_phase (f : BitVec 1) (t : BitVec 2) (s : State) : (latchBlock f t s).phase = s.phase := rfl
@[simp] theorem latchBlock_draws (f : BitVec 1) (t : BitVec 2) (s : State) : (latchBlock f t s).draws = s.draws := rfl
@[simp] theorem latchBlock_busRdata (f : BitVec 1) (t : BitVec 2) (s : State) : (latchBlock f t s).busRdata = s.busRdata := rfl
@[simp] theorem latchBlock_hostQueue (f : BitVec 1) (t : BitVec 2) (s : State) : (latchBlock f t s).hostQueue = s.hostQueue := rfl
@[simp] theorem latchBlock_loan (f : BitVec 1) (t : BitVec 2) (s : State) : (latchBlock f t s).loan = s.loan := rfl
@[simp] theorem latchBlock_job (f : BitVec 1) (t : BitVec 2) (s : State) : (latchBlock f t s).job = s.job := rfl

/-! ### `jobFail` -/

@[simp] theorem jobFail_st (e : ErrorCode) (s : State) : (jobFail e s).st = s.st := rfl
@[simp] theorem jobFail_irqEn (e : ErrorCode) (s : State) : (jobFail e s).irqEn = s.irqEn := rfl
@[simp] theorem jobFail_cfg (e : ErrorCode) (s : State) : (jobFail e s).cfg = s.cfg := rfl
@[simp] theorem jobFail_sizes (e : ErrorCode) (s : State) : (jobFail e s).sizes = s.sizes := rfl
@[simp] theorem jobFail_outCount (e : ErrorCode) (s : State) : (jobFail e s).outCount = s.outCount := rfl
@[simp] theorem jobFail_blockCount (e : ErrorCode) (s : State) : (jobFail e s).blockCount = s.blockCount := rfl
@[simp] theorem jobFail_cur (e : ErrorCode) (s : State) : (jobFail e s).cur = s.cur := rfl
@[simp] theorem jobFail_lat (e : ErrorCode) (s : State) : (jobFail e s).lat = s.lat := rfl
@[simp] theorem jobFail_bfinal (e : ErrorCode) (s : State) : (jobFail e s).bfinal = s.bfinal := rfl
@[simp] theorem jobFail_btype (e : ErrorCode) (s : State) : (jobFail e s).btype = s.btype := rfl
@[simp] theorem jobFail_ll (e : ErrorCode) (s : State) : (jobFail e s).ll = s.ll := rfl
@[simp] theorem jobFail_dt (e : ErrorCode) (s : State) : (jobFail e s).dt = s.dt := rfl
@[simp] theorem jobFail_clt (e : ErrorCode) (s : State) : (jobFail e s).clt = s.clt := rfl
@[simp] theorem jobFail_dyn (e : ErrorCode) (s : State) : (jobFail e s).dyn = s.dyn := rfl
@[simp] theorem jobFail_storedRem (e : ErrorCode) (s : State) : (jobFail e s).storedRem = s.storedRem := rfl
@[simp] theorem jobFail_copyLen (e : ErrorCode) (s : State) : (jobFail e s).copyLen = s.copyLen := rfl
@[simp] theorem jobFail_copyDist (e : ErrorCode) (s : State) : (jobFail e s).copyDist = s.copyDist := rfl
@[simp] theorem jobFail_row (e : ErrorCode) (s : State) : (jobFail e s).row = s.row := rfl
@[simp] theorem jobFail_col (e : ErrorCode) (s : State) : (jobFail e s).col = s.col := rfl
@[simp] theorem jobFail_ft (e : ErrorCode) (s : State) : (jobFail e s).ft = s.ft := rfl
@[simp] theorem jobFail_errCode (e : ErrorCode) (s : State) : (jobFail e s).errCode = s.errCode := rfl
@[simp] theorem jobFail_errState (e : ErrorCode) (s : State) : (jobFail e s).errState = s.errState := rfl
@[simp] theorem jobFail_mem (e : ErrorCode) (s : State) : (jobFail e s).mem = s.mem := rfl
@[simp] theorem jobFail_phase (e : ErrorCode) (s : State) : (jobFail e s).phase = s.phase := rfl
@[simp] theorem jobFail_draws (e : ErrorCode) (s : State) : (jobFail e s).draws = s.draws := rfl
@[simp] theorem jobFail_busRdata (e : ErrorCode) (s : State) : (jobFail e s).busRdata = s.busRdata := rfl
@[simp] theorem jobFail_hostQueue (e : ErrorCode) (s : State) : (jobFail e s).hostQueue = s.hostQueue := rfl
@[simp] theorem jobFail_loan (e : ErrorCode) (s : State) : (jobFail e s).loan = s.loan := rfl
@[simp] theorem jobFail_job (e : ErrorCode) (s : State) : (jobFail e s).job = { s.job with phase := .returned, result := .failure e } := rfl

/-! ### `advanceChunk` -/

@[simp] theorem advanceChunk_st (s : State) : (advanceChunk s).st = s.st := rfl
@[simp] theorem advanceChunk_irqEn (s : State) : (advanceChunk s).irqEn = s.irqEn := rfl
@[simp] theorem advanceChunk_cfg (s : State) : (advanceChunk s).cfg = s.cfg := rfl
@[simp] theorem advanceChunk_sizes (s : State) : (advanceChunk s).sizes = s.sizes := rfl
@[simp] theorem advanceChunk_outCount (s : State) : (advanceChunk s).outCount = s.outCount := rfl
@[simp] theorem advanceChunk_blockCount (s : State) : (advanceChunk s).blockCount = s.blockCount := rfl
@[simp] theorem advanceChunk_cur (s : State) : (advanceChunk s).cur = s.cur := rfl
@[simp] theorem advanceChunk_lat (s : State) : (advanceChunk s).lat = s.lat := rfl
@[simp] theorem advanceChunk_bfinal (s : State) : (advanceChunk s).bfinal = s.bfinal := rfl
@[simp] theorem advanceChunk_btype (s : State) : (advanceChunk s).btype = s.btype := rfl
@[simp] theorem advanceChunk_ll (s : State) : (advanceChunk s).ll = s.ll := rfl
@[simp] theorem advanceChunk_dt (s : State) : (advanceChunk s).dt = s.dt := rfl
@[simp] theorem advanceChunk_clt (s : State) : (advanceChunk s).clt = s.clt := rfl
@[simp] theorem advanceChunk_dyn (s : State) : (advanceChunk s).dyn = s.dyn := rfl
@[simp] theorem advanceChunk_storedRem (s : State) : (advanceChunk s).storedRem = s.storedRem := rfl
@[simp] theorem advanceChunk_copyLen (s : State) : (advanceChunk s).copyLen = s.copyLen := rfl
@[simp] theorem advanceChunk_copyDist (s : State) : (advanceChunk s).copyDist = s.copyDist := rfl
@[simp] theorem advanceChunk_row (s : State) : (advanceChunk s).row = s.row := rfl
@[simp] theorem advanceChunk_col (s : State) : (advanceChunk s).col = s.col := rfl
@[simp] theorem advanceChunk_ft (s : State) : (advanceChunk s).ft = s.ft := rfl
@[simp] theorem advanceChunk_errCode (s : State) : (advanceChunk s).errCode = s.errCode := rfl
@[simp] theorem advanceChunk_errState (s : State) : (advanceChunk s).errState = s.errState := rfl
@[simp] theorem advanceChunk_mem (s : State) : (advanceChunk s).mem = s.mem := rfl
@[simp] theorem advanceChunk_phase (s : State) : (advanceChunk s).phase = s.phase := rfl
@[simp] theorem advanceChunk_draws (s : State) : (advanceChunk s).draws = s.draws := rfl
@[simp] theorem advanceChunk_busRdata (s : State) : (advanceChunk s).busRdata = s.busRdata := rfl
@[simp] theorem advanceChunk_hostQueue (s : State) : (advanceChunk s).hostQueue = s.hostQueue := rfl
@[simp] theorem advanceChunk_loan (s : State) : (advanceChunk s).loan = s.loan := rfl
@[simp] theorem advanceChunk_job (s : State) : (advanceChunk s).job = { s.job with pos := s.job.pos + 12 + s.job.chunkLen.toNat } := rfl

/-! ### `latchConfig` -/

@[simp] theorem latchConfig_st (s : State) : (latchConfig s).st = s.st := rfl
@[simp] theorem latchConfig_irqEn (s : State) : (latchConfig s).irqEn = s.irqEn := rfl
@[simp] theorem latchConfig_cfg (s : State) : (latchConfig s).cfg = s.cfg := rfl
@[simp] theorem latchConfig_sizes (s : State) : (latchConfig s).sizes = s.sizes := rfl
@[simp] theorem latchConfig_outCount (s : State) : (latchConfig s).outCount = s.outCount := rfl
@[simp] theorem latchConfig_blockCount (s : State) : (latchConfig s).blockCount = s.blockCount := rfl
@[simp] theorem latchConfig_cur (s : State) : (latchConfig s).cur = s.cur := rfl
@[simp] theorem latchConfig_bfinal (s : State) : (latchConfig s).bfinal = s.bfinal := rfl
@[simp] theorem latchConfig_btype (s : State) : (latchConfig s).btype = s.btype := rfl
@[simp] theorem latchConfig_ll (s : State) : (latchConfig s).ll = s.ll := rfl
@[simp] theorem latchConfig_dt (s : State) : (latchConfig s).dt = s.dt := rfl
@[simp] theorem latchConfig_clt (s : State) : (latchConfig s).clt = s.clt := rfl
@[simp] theorem latchConfig_dyn (s : State) : (latchConfig s).dyn = s.dyn := rfl
@[simp] theorem latchConfig_storedRem (s : State) : (latchConfig s).storedRem = s.storedRem := rfl
@[simp] theorem latchConfig_copyLen (s : State) : (latchConfig s).copyLen = s.copyLen := rfl
@[simp] theorem latchConfig_copyDist (s : State) : (latchConfig s).copyDist = s.copyDist := rfl
@[simp] theorem latchConfig_row (s : State) : (latchConfig s).row = s.row := rfl
@[simp] theorem latchConfig_col (s : State) : (latchConfig s).col = s.col := rfl
@[simp] theorem latchConfig_ft (s : State) : (latchConfig s).ft = s.ft := rfl
@[simp] theorem latchConfig_errCode (s : State) : (latchConfig s).errCode = s.errCode := rfl
@[simp] theorem latchConfig_errState (s : State) : (latchConfig s).errState = s.errState := rfl
@[simp] theorem latchConfig_mem (s : State) : (latchConfig s).mem = s.mem := rfl
@[simp] theorem latchConfig_phase (s : State) : (latchConfig s).phase = s.phase := rfl
@[simp] theorem latchConfig_draws (s : State) : (latchConfig s).draws = s.draws := rfl
@[simp] theorem latchConfig_busRdata (s : State) : (latchConfig s).busRdata = s.busRdata := rfl
@[simp] theorem latchConfig_hostQueue (s : State) : (latchConfig s).hostQueue = s.hostQueue := rfl
@[simp] theorem latchConfig_loan (s : State) : (latchConfig s).loan = s.loan := rfl
@[simp] theorem latchConfig_job (s : State) : (latchConfig s).job = s.job := rfl

/-! ### `hostReadStatus` -/

@[simp] theorem hostReadStatus_st (s : State) : (hostReadStatus s).st = s.st := rfl
@[simp] theorem hostReadStatus_irqEn (s : State) : (hostReadStatus s).irqEn = s.irqEn := rfl
@[simp] theorem hostReadStatus_cfg (s : State) : (hostReadStatus s).cfg = s.cfg := rfl
@[simp] theorem hostReadStatus_sizes (s : State) : (hostReadStatus s).sizes = s.sizes := rfl
@[simp] theorem hostReadStatus_outCount (s : State) : (hostReadStatus s).outCount = s.outCount := rfl
@[simp] theorem hostReadStatus_blockCount (s : State) : (hostReadStatus s).blockCount = s.blockCount := rfl
@[simp] theorem hostReadStatus_cur (s : State) : (hostReadStatus s).cur = s.cur := rfl
@[simp] theorem hostReadStatus_lat (s : State) : (hostReadStatus s).lat = s.lat := rfl
@[simp] theorem hostReadStatus_bfinal (s : State) : (hostReadStatus s).bfinal = s.bfinal := rfl
@[simp] theorem hostReadStatus_btype (s : State) : (hostReadStatus s).btype = s.btype := rfl
@[simp] theorem hostReadStatus_ll (s : State) : (hostReadStatus s).ll = s.ll := rfl
@[simp] theorem hostReadStatus_dt (s : State) : (hostReadStatus s).dt = s.dt := rfl
@[simp] theorem hostReadStatus_clt (s : State) : (hostReadStatus s).clt = s.clt := rfl
@[simp] theorem hostReadStatus_dyn (s : State) : (hostReadStatus s).dyn = s.dyn := rfl
@[simp] theorem hostReadStatus_storedRem (s : State) : (hostReadStatus s).storedRem = s.storedRem := rfl
@[simp] theorem hostReadStatus_copyLen (s : State) : (hostReadStatus s).copyLen = s.copyLen := rfl
@[simp] theorem hostReadStatus_copyDist (s : State) : (hostReadStatus s).copyDist = s.copyDist := rfl
@[simp] theorem hostReadStatus_row (s : State) : (hostReadStatus s).row = s.row := rfl
@[simp] theorem hostReadStatus_col (s : State) : (hostReadStatus s).col = s.col := rfl
@[simp] theorem hostReadStatus_ft (s : State) : (hostReadStatus s).ft = s.ft := rfl
@[simp] theorem hostReadStatus_errCode (s : State) : (hostReadStatus s).errCode = s.errCode := rfl
@[simp] theorem hostReadStatus_errState (s : State) : (hostReadStatus s).errState = s.errState := rfl
@[simp] theorem hostReadStatus_mem (s : State) : (hostReadStatus s).mem = s.mem := rfl
@[simp] theorem hostReadStatus_phase (s : State) : (hostReadStatus s).phase = s.phase := rfl
@[simp] theorem hostReadStatus_draws (s : State) : (hostReadStatus s).draws = s.draws := rfl
@[simp] theorem hostReadStatus_busRdata (s : State) : (hostReadStatus s).busRdata = s.statusWord := rfl
@[simp] theorem hostReadStatus_hostQueue (s : State) : (hostReadStatus s).hostQueue = s.hostQueue := rfl
@[simp] theorem hostReadStatus_loan (s : State) : (hostReadStatus s).loan = if s.busy then s.loan else none := rfl
@[simp] theorem hostReadStatus_job (s : State) : (hostReadStatus s).job = s.job := rfl

/-! ### `buildTables` -/

@[simp] theorem buildTables_st (litlen dist : List Nat) (s : State) : (buildTables litlen dist s).st = s.st := rfl
@[simp] theorem buildTables_irqEn (litlen dist : List Nat) (s : State) : (buildTables litlen dist s).irqEn = s.irqEn := rfl
@[simp] theorem buildTables_cfg (litlen dist : List Nat) (s : State) : (buildTables litlen dist s).cfg = s.cfg := rfl
@[simp] theorem buildTables_sizes (litlen dist : List Nat) (s : State) : (buildTables litlen dist s).sizes = s.sizes := rfl
@[simp] theorem buildTables_outCount (litlen dist : List Nat) (s : State) : (buildTables litlen dist s).outCount = s.outCount := rfl
@[simp] theorem buildTables_blockCount (litlen dist : List Nat) (s : State) : (buildTables litlen dist s).blockCount = s.blockCount := rfl
@[simp] theorem buildTables_cur (litlen dist : List Nat) (s : State) : (buildTables litlen dist s).cur = s.cur := rfl
@[simp] theorem buildTables_lat (litlen dist : List Nat) (s : State) : (buildTables litlen dist s).lat = s.lat := rfl
@[simp] theorem buildTables_bfinal (litlen dist : List Nat) (s : State) : (buildTables litlen dist s).bfinal = s.bfinal := rfl
@[simp] theorem buildTables_btype (litlen dist : List Nat) (s : State) : (buildTables litlen dist s).btype = s.btype := rfl
@[simp] theorem buildTables_ll (litlen dist : List Nat) (s : State) : (buildTables litlen dist s).ll = build llShape litlen s.draws := rfl
@[simp] theorem buildTables_dt (litlen dist : List Nat) (s : State) : (buildTables litlen dist s).dt = build dtShape dist (s.draws + llShape.draws) := rfl
@[simp] theorem buildTables_clt (litlen dist : List Nat) (s : State) : (buildTables litlen dist s).clt = s.clt := rfl
@[simp] theorem buildTables_dyn (litlen dist : List Nat) (s : State) : (buildTables litlen dist s).dyn = s.dyn := rfl
@[simp] theorem buildTables_storedRem (litlen dist : List Nat) (s : State) : (buildTables litlen dist s).storedRem = s.storedRem := rfl
@[simp] theorem buildTables_copyLen (litlen dist : List Nat) (s : State) : (buildTables litlen dist s).copyLen = s.copyLen := rfl
@[simp] theorem buildTables_copyDist (litlen dist : List Nat) (s : State) : (buildTables litlen dist s).copyDist = s.copyDist := rfl
@[simp] theorem buildTables_row (litlen dist : List Nat) (s : State) : (buildTables litlen dist s).row = s.row := rfl
@[simp] theorem buildTables_col (litlen dist : List Nat) (s : State) : (buildTables litlen dist s).col = s.col := rfl
@[simp] theorem buildTables_ft (litlen dist : List Nat) (s : State) : (buildTables litlen dist s).ft = s.ft := rfl
@[simp] theorem buildTables_errCode (litlen dist : List Nat) (s : State) : (buildTables litlen dist s).errCode = s.errCode := rfl
@[simp] theorem buildTables_errState (litlen dist : List Nat) (s : State) : (buildTables litlen dist s).errState = s.errState := rfl
@[simp] theorem buildTables_mem (litlen dist : List Nat) (s : State) : (buildTables litlen dist s).mem = s.mem := rfl
@[simp] theorem buildTables_phase (litlen dist : List Nat) (s : State) : (buildTables litlen dist s).phase = s.phase := rfl
@[simp] theorem buildTables_draws (litlen dist : List Nat) (s : State) : (buildTables litlen dist s).draws = s.draws + llShape.draws + dtShape.draws := rfl
@[simp] theorem buildTables_busRdata (litlen dist : List Nat) (s : State) : (buildTables litlen dist s).busRdata = s.busRdata := rfl
@[simp] theorem buildTables_hostQueue (litlen dist : List Nat) (s : State) : (buildTables litlen dist s).hostQueue = s.hostQueue := rfl
@[simp] theorem buildTables_loan (litlen dist : List Nat) (s : State) : (buildTables litlen dist s).loan = s.loan := rfl
@[simp] theorem buildTables_job (litlen dist : List Nat) (s : State) : (buildTables litlen dist s).job = s.job := rfl

/-! ### `latchSizes` -/

@[simp] theorem latchSizes_st (bpp : Nat) (s : State) : (latchSizes bpp s).st = s.st := rfl
@[simp] theorem latchSizes_irqEn (bpp : Nat) (s : State) : (latchSizes bpp s).irqEn = s.irqEn := rfl
@[simp] theorem latchSizes_cfg (bpp : Nat) (s : State) : (latchSizes bpp s).cfg = s.cfg := rfl
@[simp] theorem latchSizes_outCount (bpp : Nat) (s : State) : (latchSizes bpp s).outCount = s.outCount := rfl
@[simp] theorem latchSizes_blockCount (bpp : Nat) (s : State) : (latchSizes bpp s).blockCount = s.blockCount := rfl
@[simp] theorem latchSizes_cur (bpp : Nat) (s : State) : (latchSizes bpp s).cur = s.cur := rfl
@[simp] theorem latchSizes_bfinal (bpp : Nat) (s : State) : (latchSizes bpp s).bfinal = s.bfinal := rfl
@[simp] theorem latchSizes_btype (bpp : Nat) (s : State) : (latchSizes bpp s).btype = s.btype := rfl
@[simp] theorem latchSizes_ll (bpp : Nat) (s : State) : (latchSizes bpp s).ll = s.ll := rfl
@[simp] theorem latchSizes_dt (bpp : Nat) (s : State) : (latchSizes bpp s).dt = s.dt := rfl
@[simp] theorem latchSizes_clt (bpp : Nat) (s : State) : (latchSizes bpp s).clt = s.clt := rfl
@[simp] theorem latchSizes_dyn (bpp : Nat) (s : State) : (latchSizes bpp s).dyn = s.dyn := rfl
@[simp] theorem latchSizes_storedRem (bpp : Nat) (s : State) : (latchSizes bpp s).storedRem = s.storedRem := rfl
@[simp] theorem latchSizes_copyLen (bpp : Nat) (s : State) : (latchSizes bpp s).copyLen = s.copyLen := rfl
@[simp] theorem latchSizes_copyDist (bpp : Nat) (s : State) : (latchSizes bpp s).copyDist = s.copyDist := rfl
@[simp] theorem latchSizes_row (bpp : Nat) (s : State) : (latchSizes bpp s).row = s.row := rfl
@[simp] theorem latchSizes_col (bpp : Nat) (s : State) : (latchSizes bpp s).col = s.col := rfl
@[simp] theorem latchSizes_ft (bpp : Nat) (s : State) : (latchSizes bpp s).ft = s.ft := rfl
@[simp] theorem latchSizes_errCode (bpp : Nat) (s : State) : (latchSizes bpp s).errCode = s.errCode := rfl
@[simp] theorem latchSizes_errState (bpp : Nat) (s : State) : (latchSizes bpp s).errState = s.errState := rfl
@[simp] theorem latchSizes_mem (bpp : Nat) (s : State) : (latchSizes bpp s).mem = s.mem := rfl
@[simp] theorem latchSizes_phase (bpp : Nat) (s : State) : (latchSizes bpp s).phase = s.phase := rfl
@[simp] theorem latchSizes_draws (bpp : Nat) (s : State) : (latchSizes bpp s).draws = s.draws := rfl
@[simp] theorem latchSizes_busRdata (bpp : Nat) (s : State) : (latchSizes bpp s).busRdata = s.busRdata := rfl
@[simp] theorem latchSizes_hostQueue (bpp : Nat) (s : State) : (latchSizes bpp s).hostQueue = s.hostQueue := rfl
@[simp] theorem latchSizes_loan (bpp : Nat) (s : State) : (latchSizes bpp s).loan = s.loan := rfl
@[simp] theorem latchSizes_job (bpp : Nat) (s : State) : (latchSizes bpp s).job = s.job := rfl
/-! ### `tickHost` changes the queue only -/

@[simp] theorem tickHost_st (s : State) : (tickHost s).st = s.st := by unfold tickHost; split <;> rfl
@[simp] theorem tickHost_irqEn (s : State) : (tickHost s).irqEn = s.irqEn := by unfold tickHost; split <;> rfl
@[simp] theorem tickHost_cfg (s : State) : (tickHost s).cfg = s.cfg := by unfold tickHost; split <;> rfl
@[simp] theorem tickHost_sizes (s : State) : (tickHost s).sizes = s.sizes := by unfold tickHost; split <;> rfl
@[simp] theorem tickHost_outCount (s : State) : (tickHost s).outCount = s.outCount := by unfold tickHost; split <;> rfl
@[simp] theorem tickHost_blockCount (s : State) : (tickHost s).blockCount = s.blockCount := by unfold tickHost; split <;> rfl
@[simp] theorem tickHost_cur (s : State) : (tickHost s).cur = s.cur := by unfold tickHost; split <;> rfl
@[simp] theorem tickHost_lat (s : State) : (tickHost s).lat = s.lat := by unfold tickHost; split <;> rfl
@[simp] theorem tickHost_bfinal (s : State) : (tickHost s).bfinal = s.bfinal := by unfold tickHost; split <;> rfl
@[simp] theorem tickHost_btype (s : State) : (tickHost s).btype = s.btype := by unfold tickHost; split <;> rfl
@[simp] theorem tickHost_ll (s : State) : (tickHost s).ll = s.ll := by unfold tickHost; split <;> rfl
@[simp] theorem tickHost_dt (s : State) : (tickHost s).dt = s.dt := by unfold tickHost; split <;> rfl
@[simp] theorem tickHost_clt (s : State) : (tickHost s).clt = s.clt := by unfold tickHost; split <;> rfl
@[simp] theorem tickHost_dyn (s : State) : (tickHost s).dyn = s.dyn := by unfold tickHost; split <;> rfl
@[simp] theorem tickHost_storedRem (s : State) : (tickHost s).storedRem = s.storedRem := by unfold tickHost; split <;> rfl
@[simp] theorem tickHost_copyLen (s : State) : (tickHost s).copyLen = s.copyLen := by unfold tickHost; split <;> rfl
@[simp] theorem tickHost_copyDist (s : State) : (tickHost s).copyDist = s.copyDist := by unfold tickHost; split <;> rfl
@[simp] theorem tickHost_row (s : State) : (tickHost s).row = s.row := by unfold tickHost; split <;> rfl
@[simp] theorem tickHost_col (s : State) : (tickHost s).col = s.col := by unfold tickHost; split <;> rfl
@[simp] theorem tickHost_ft (s : State) : (tickHost s).ft = s.ft := by unfold tickHost; split <;> rfl
@[simp] theorem tickHost_errCode (s : State) : (tickHost s).errCode = s.errCode := by unfold tickHost; split <;> rfl
@[simp] theorem tickHost_errState (s : State) : (tickHost s).errState = s.errState := by unfold tickHost; split <;> rfl
@[simp] theorem tickHost_mem (s : State) : (tickHost s).mem = s.mem := by unfold tickHost; split <;> rfl
@[simp] theorem tickHost_phase (s : State) : (tickHost s).phase = s.phase := by unfold tickHost; split <;> rfl
@[simp] theorem tickHost_draws (s : State) : (tickHost s).draws = s.draws := by unfold tickHost; split <;> rfl
@[simp] theorem tickHost_busRdata (s : State) : (tickHost s).busRdata = s.busRdata := by unfold tickHost; split <;> rfl
@[simp] theorem tickHost_loan (s : State) : (tickHost s).loan = s.loan := by unfold tickHost; split <;> rfl
@[simp] theorem tickHost_job (s : State) : (tickHost s).job = s.job := by unfold tickHost; split <;> rfl

/-! ### `blockEnd` -/

@[simp] theorem blockEnd_irqEn (s : State) : (blockEnd s).irqEn = s.irqEn := rfl
@[simp] theorem blockEnd_cfg (s : State) : (blockEnd s).cfg = s.cfg := rfl
@[simp] theorem blockEnd_sizes (s : State) : (blockEnd s).sizes = s.sizes := rfl
@[simp] theorem blockEnd_outCount (s : State) : (blockEnd s).outCount = s.outCount := rfl
@[simp] theorem blockEnd_blockCount (s : State) : (blockEnd s).blockCount = s.blockCount := rfl
@[simp] theorem blockEnd_cur (s : State) : (blockEnd s).cur = s.cur := rfl
@[simp] theorem blockEnd_lat (s : State) : (blockEnd s).lat = s.lat := rfl
@[simp] theorem blockEnd_bfinal (s : State) : (blockEnd s).bfinal = s.bfinal := rfl
@[simp] theorem blockEnd_btype (s : State) : (blockEnd s).btype = s.btype := rfl
@[simp] theorem blockEnd_ll (s : State) : (blockEnd s).ll = s.ll := rfl
@[simp] theorem blockEnd_dt (s : State) : (blockEnd s).dt = s.dt := rfl
@[simp] theorem blockEnd_clt (s : State) : (blockEnd s).clt = s.clt := rfl
@[simp] theorem blockEnd_dyn (s : State) : (blockEnd s).dyn = s.dyn := rfl
@[simp] theorem blockEnd_storedRem (s : State) : (blockEnd s).storedRem = s.storedRem := rfl
@[simp] theorem blockEnd_copyLen (s : State) : (blockEnd s).copyLen = s.copyLen := rfl
@[simp] theorem blockEnd_copyDist (s : State) : (blockEnd s).copyDist = s.copyDist := rfl
@[simp] theorem blockEnd_row (s : State) : (blockEnd s).row = s.row := rfl
@[simp] theorem blockEnd_col (s : State) : (blockEnd s).col = s.col := rfl
@[simp] theorem blockEnd_ft (s : State) : (blockEnd s).ft = s.ft := rfl
@[simp] theorem blockEnd_errCode (s : State) : (blockEnd s).errCode = s.errCode := rfl
@[simp] theorem blockEnd_errState (s : State) : (blockEnd s).errState = s.errState := rfl
@[simp] theorem blockEnd_mem (s : State) : (blockEnd s).mem = s.mem := rfl
@[simp] theorem blockEnd_draws (s : State) : (blockEnd s).draws = s.draws := rfl
@[simp] theorem blockEnd_busRdata (s : State) : (blockEnd s).busRdata = s.busRdata := rfl
@[simp] theorem blockEnd_hostQueue (s : State) : (blockEnd s).hostQueue = s.hostQueue := rfl
@[simp] theorem blockEnd_loan (s : State) : (blockEnd s).loan = s.loan := rfl
@[simp] theorem blockEnd_job (s : State) : (blockEnd s).job = s.job := rfl

/-- The state after a block (R102). -/
@[simp] theorem blockEnd_st (s : State) : (blockEnd s).st = if s.bfinal = 1 then .trailer else .blockHeader := rfl
@[simp] theorem blockEnd_phase (s : State) : (blockEnd s).phase = .boundary := rfl

/-! ### A host write of a configuration register -/

theorem writeConfig_busy {c : ConfigRegs} {s : State} (h : s.busy = true) : writeConfig c s = s := by
  simp [writeConfig, h]

theorem writeConfig_ready {c : ConfigRegs} {s : State} (h : s.busy = false) : writeConfig c s = { s with cfg := c } := by
  simp [writeConfig, h]

/-! ### A host read of a register changes the word read and the number of draws only -/

theorem progressRead_frame (v : Word) (s : State) :
    ∃ d n, progressRead v s = { s with busRdata := d, draws := n } := by
  unfold progressRead
  split
  · exact ⟨_, _, rfl⟩
  · exact ⟨_, s.draws, rfl⟩

theorem hostReadRegister_frame {o : BitVec 8} (s : State) (h : o ≠ 0x04#8) :
    ∃ d n, hostReadRegister o s = { s with busRdata := d, draws := n } := by
  unfold hostReadRegister
  split
  case h_2 h' => exact absurd (BitVec.eq_of_toNat_eq h') h
  all_goals first | exact progressRead_frame _ s | exact ⟨_, s.draws, rfl⟩

end Sys2Proof.Machine
end

