-- ==== Sys2Proof/Laws/Operations.lean ====
section
/-! SUPPORT. Everything the longer operations can do: the copies into the work buffer, the code lengths, the filter's columns,
the configuration check. Each lemma is cited instead of unfolding the operation. -/

namespace Sys2Proof.Machine

/-! ### Output to the work buffer -/

/-- The two states differ in the work buffer's bytes from OUT_COUNT on and in OUT_COUNT only, and OUT_COUNT stays within
WORK_SIZE (R30). -/
structure WritesWork (s t : State) : Prop where
  frame : t = { s with mem := t.mem, outCount := t.outCount }
  wf : s.mem.wf → t.mem.wf
  le : s.outCount.toNat ≤ t.outCount.toNat
  room : t.outCount.toNat ≤ s.sizes.workSize.toNat
  other : ∀ a, (a < s.lat.wbase.toNat + s.outCount.toNat ∨ s.lat.wbase.toNat + s.sizes.workSize.toNat ≤ a) →
    t.mem.read a = s.mem.read a

theorem WritesWork.refl {s : State} (h : s.outCount.toNat ≤ s.sizes.workSize.toNat) : WritesWork s s :=
  ⟨rfl, id, le_refl _, h, fun _ _ => rfl⟩

theorem WritesWork.lat {s t : State} (h : WritesWork s t) : t.lat = s.lat := by rw [h.frame]
theorem WritesWork.sizes {s t : State} (h : WritesWork s t) : t.sizes = s.sizes := by rw [h.frame]

theorem WritesWork.trans {s t u : State} (h : WritesWork s t) (h' : WritesWork t u) : WritesWork s u := by
  have hl := h.lat
  have hz := h.sizes
  refine ⟨?_, fun w => h'.wf (h.wf w), h.le.trans h'.le, by rw [← hz]; exact h'.room, fun a ha => ?_⟩
  · rw [h'.frame, h.frame]
  · rw [h'.other a ?_, h.other a ha]
    rw [hl, hz]
    have := h.le
    rcases ha with ha | ha
    · exact .inl (by omega)
    · exact .inr ha

/-- The output has room and the work buffer lies in memory. -/
def workPlaced (s : State) : Prop :=
  s.outCount.toNat ≤ s.sizes.workSize.toNat ∧ s.lat.wbase.toNat + s.sizes.workSize.toNat ≤ memBytes

theorem WritesWork.workPlaced {s t : State} (h : WritesWork s t) (hs : workPlaced s) : workPlaced t := by
  unfold Machine.workPlaced at *
  rw [h.sizes, h.lat]
  exact ⟨h.room, hs.2⟩

/-- `emit` (R117) where the work buffer lies in memory: it cannot stop. -/
theorem emit_work (b : Byte) {s : State} (hs : workPlaced s) :
    (emit b s).All False (fun _ t => WritesWork s t)
      (fun e t => e = .outputSizeMismatch ∧ t = s) := by
  obtain ⟨h1, h2⟩ := hs
  have hne : s.outCount ≠ s.sizes.workSize → s.outCount.toNat < s.sizes.workSize.toNat := fun h =>
    lt_of_le_of_ne h1 fun h' => h (BitVec.eq_of_toNat_eq h')
  unfold emit
  by_cases hc : s.outCount = s.sizes.workSize
  · rw [if_pos hc]; exact ⟨rfl, rfl⟩
  · rw [if_neg hc, memWrite_ok _ _ (by have := hne hc; omega), Run.bind_ok]
    have hlt := hne hc
    have hcount : (s.outCount + 1).toNat = s.outCount.toNat + 1 := by
      have := s.sizes.workSize.isLt
      rw [BitVec.toNat_add]; simp; omega
    refine ⟨rfl, fun w => Memory.write_wf _ w (by omega), ?_, ?_, fun a ha => ?_⟩
    · simp only [hcount]; omega
    · simp only [hcount]; omega
    · exact Memory.read_write_other _ _ (by omega)

/-- `copy()` (R122) can only write the work buffer, or raise OutputSizeMismatch. -/
theorem copyMatch_all (n : Nat) {s : State} (hs : workPlaced s) (hd : s.copyDist.toNat ≤ s.outCount.toNat)
    (h0 : 0 < s.copyDist.toNat) :
    (copyMatch n s).All False (fun _ t => WritesWork s t)
      (fun e t => e = .outputSizeMismatch ∧ WritesWork s t) := by
  induction n generalizing s with
  | zero => exact .refl hs.1
  | succ n ih =>
    have h1 := hs.1
    have h2 := hs.2
    unfold copyMatch
    rw [memRead_ok _ (by omega), Run.bind_ok]
    refine Run.All.bind ((emit_work _ hs).imp id (fun _ _ h => h) ?_) ?_
    · rintro e t ⟨rfl, rfl⟩; exact ⟨rfl, .refl hs.1⟩
    · intro _ t ht
      have hcd : t.copyDist = s.copyDist := by rw [ht.frame]
      refine (ih (ht.workPlaced hs) ?_ ?_).imp id ?_ ?_
      · rw [hcd]; exact hd.trans ht.le
      · rw [hcd]; exact h0
      · intro _ u hu; exact ht.trans hu
      · rintro e u ⟨h3, h4⟩; exact ⟨h3, ht.trans h4⟩

/-- One pass of the copy loop (R122) that has room: the byte `COPY_DIST` back is appended. -/
theorem copyMatch_succ {n : Nat} {s : State} (hc : s.outCount.toNat < s.sizes.workSize.toNat)
    (hw : s.lat.wbase.toNat + s.sizes.workSize.toNat ≤ memBytes) :
    copyMatch (n + 1) s = copyMatch n
      { s with
        mem := s.mem.write (s.lat.wbase.toNat + s.outCount.toNat)
          (s.mem.read (s.lat.wbase.toNat + s.outCount.toNat - s.copyDist.toNat))
        outCount := s.outCount + 1 } := by
  have hne : s.outCount ≠ s.sizes.workSize := fun h => by rw [h] at hc; omega
  conv => lhs; unfold copyMatch
  rw [memRead_ok _ (by omega), Run.bind_ok, emit_ok hne (by omega), Run.bind_ok]

/-! ### The stored block -/

/-- The state in which a stored block's copy ends or fails (R104): the work buffer, the cursor and STORED_REM changed. -/
structure CopiesStored (s t : State) : Prop where
  frame : t = { s with
    mem := t.mem
    outCount := t.outCount
    cur := t.cur
    storedRem := t.storedRem }
  wf : s.mem.wf → t.mem.wf
  room : t.outCount.toNat ≤ s.sizes.workSize.toNat
  bit : t.cur.bit = s.cur.bit

theorem CopiesStored.refl {s : State} (h : s.outCount.toNat ≤ s.sizes.workSize.toNat) : CopiesStored s s :=
  ⟨rfl, id, h, rfl⟩

theorem CopiesStored.trans {s t u : State} (h : CopiesStored s t) (h' : CopiesStored t u) : CopiesStored s u := by
  refine ⟨by rw [h'.frame, h.frame], fun w => h'.wf (h.wf w), ?_, h'.bit.trans h.bit⟩
  have : t.sizes = s.sizes := by rw [h.frame]
  rw [← this]; exact h'.room

theorem MovesCursor.copiesStored {s t : State} (h : MovesCursor s t) (hr : s.outCount.toNat ≤ s.sizes.workSize.toNat)
    (hb : t.cur.bit = s.cur.bit) : CopiesStored s t := by
  unfold MovesCursor at h
  refine ⟨by rw [h], fun w => by rw [h]; exact w, by rw [h]; exact hr, hb⟩

theorem WritesWork.copiesStored {s t : State} (h : WritesWork s t) : CopiesStored s t := by
  refine ⟨by rw [h.frame], h.wf, h.room, by rw [h.frame]⟩

/-- Everything the data copy of a stored block can do (R104). -/
theorem copyStored_all (n : Nat) {s : State} (hs : workPlaced s) (ht : tableReadable s) :
    (copyStored n s).All False (fun _ t => ∃ u, CopiesStored s u ∧ t = blockEnd u)
      (fun e t => (e = .truncatedInput ∨ e = .outputSizeMismatch) ∧ t.lat = s.lat ∧ t.sizes = s.sizes ∧ t.cfg = s.cfg
        ∧ t.st = s.st ∧ t.dyn = s.dyn ∧ (s.mem.wf → t.mem.wf)) := by
  induction n generalizing s with
  | zero => exact ⟨s, .refl hs.1, rfl⟩
  | succ n ih =>
    unfold copyStored
    refine Run.All.bind (P := fun _ t => MovesCursor s t ∧ t.cur.bit = s.cur.bit)
      ((readByte_all s).imp (fun h => h ht) (fun _ _ h => h) ?_) ?_
    · rintro e t ⟨rfl, h⟩
      unfold MovesCursor at h
      rw [h]; exact ⟨.inl rfl, rfl, rfl, rfl, rfl, rfl, id⟩
    · rintro b t ⟨hm, hb⟩
      have hst := hm.copiesStored hs.1 hb
      have hs' : workPlaced t := by unfold workPlaced at *; rw [hm.outCount, hm.sizes, hm.lat]; exact hs
      refine Run.All.bind ((emit_work b hs').imp id (fun _ _ h => h) ?_) ?_
      · rintro e u ⟨rfl, rfl⟩
        refine ⟨.inr rfl, hm.lat, hm.sizes, ?_, ?_, hm.dyn, fun w => by rw [hm.mem]; exact w⟩
        · rw [hst.frame]
        · rw [hst.frame]
      · intro _ u hu
        have h1 : CopiesStored s u := hst.trans hu.copiesStored
        have h2 : CopiesStored s { u with storedRem := u.storedRem - 1 } := by
          refine ⟨?_, h1.wf, h1.room, h1.bit⟩
          have := h1.frame
          rw [this]
        refine (ih (s := { u with storedRem := u.storedRem - 1 }) (hu.workPlaced hs') ?_).imp id ?_ ?_
        · unfold tableReadable at *
          show u.lat.segtab.toNat + 8 * u.lat.nseg.toNat ≤ memBytes
          rw [hu.lat, hm.lat]; exact ht
        · rintro _ v ⟨w, h3, h4⟩; exact ⟨w, h2.trans h3, h4⟩
        · rintro e v ⟨h3, h4, h5, h6, h7, h8, h9⟩
          have hf := h1.frame
          have a1 : u.lat = s.lat := by rw [hf]
          have a2 : u.sizes = s.sizes := by rw [hf]
          have a3 : u.cfg = s.cfg := by rw [hf]
          have a4 : u.st = s.st := by rw [hf]
          have a5 : u.dyn = s.dyn := by rw [hf]
          exact ⟨h3, h4.trans a1, h5.trans a2, h6.trans a3, h7.trans a4, h8.trans a5, fun w => h9 (h2.wf w)⟩

/-! ### The code lengths -/

theorem setLengths_length (v : BitVec 4) (i k : Nat) (l : List (BitVec 4)) :
    (setLengths v i k l).length = l.length := by
  induction k with
  | zero => rfl
  | succ k ih => simp [setLengths, ih]

/-- What a run of code lengths changes: the `k` entries from `i` on (R110). -/
theorem setLengths_get (v : BitVec 4) (i k : Nat) (l : List (BitVec 4)) (j : Nat) (hj : j < l.length) :
    (setLengths v i k l).getD j 0 = if i ≤ j ∧ j < i + k then v else l.getD j 0 := by
  induction k with
  | zero => rw [if_neg (by omega)]; rfl
  | succ k ih =>
    unfold setLengths
    rw [List.getD_eq_getElem?_getD, List.getElem?_set]
    by_cases h : i + k = j
    · subst h
      rw [if_pos rfl, if_pos (by rw [setLengths_length]; exact hj), if_pos (by omega)]; rfl
    · rw [if_neg h, ← List.getD_eq_getElem?_getD, ih]
      by_cases h' : i ≤ j ∧ j < i + k
      · rw [if_pos h', if_pos (by omega)]
      · rw [if_neg h', if_neg (by omega)]

/-- Everything a repeat can do (R110): InvalidCodeLengths past HLIT + HDIST, else `rep` entries appended. -/
theorem appendLengths_all (v : BitVec 4) (rep : Nat) (s : State) :
    (appendLengths v rep s).All False
      (fun _ t => s.dyn.nl.toNat + rep ≤ s.dyn.hlit.toNat + s.dyn.hdist.toNat
        ∧ t = { s with
          dyn := { s.dyn with
            lens := setLengths v s.dyn.nl.toNat rep s.dyn.lens
            nl := s.dyn.nl + BitVec.ofNat 9 rep } })
      (fun e t => e = .invalidCodeLengths ∧ t = s) := by
  unfold appendLengths
  split
  · exact ⟨rfl, rfl⟩
  · exact ⟨not_lt.1 ‹_›, rfl⟩

/-! ### The filter's columns -/

/-- One filter column (R128) where the row's addresses lie in memory: it cannot stop, writes the output byte and moves COL. -/
theorem filterByte_ok (pred : Predictor) (s : State)
    (hx : filteredAddress s s.row.toNat s.col.toNat < memBytes)
    (ho : outAddress s s.row.toNat s.col.toNat < memBytes) :
    filterByte pred s = .ok ()
      { s with
        mem := s.mem.write (outAddress s s.row.toNat s.col.toNat)
          (BitVec.ofNat 8 ((s.mem.read (filteredAddress s s.row.toNat s.col.toNat)).toNat + pred
            (if s.lat.bpp.toNat ≤ s.col.toNat then s.mem.read (outAddress s s.row.toNat (s.col.toNat - s.lat.bpp.toNat))
              else 0).toNat
            (if 1 ≤ s.row.toNat then s.mem.read (outAddress s (s.row.toNat - 1) s.col.toNat) else 0).toNat
            (if 1 ≤ s.row.toNat ∧ s.lat.bpp.toNat ≤ s.col.toNat then
              s.mem.read (outAddress s (s.row.toNat - 1) (s.col.toNat - s.lat.bpp.toNat)) else 0).toNat))
        col := s.col + 1 } := by
  have hn : ∀ (p : Prop) [Decidable p] (r c : Nat), (p → r ≤ s.row.toNat ∧ c ≤ s.col.toNat) →
      neighbour (decide p) (outAddress s r c) s = .ok (if p then s.mem.read (outAddress s r c) else 0) s := by
    intro p _ r c h
    unfold neighbour
    by_cases hp : p
    · have hr : r * s.lat.stride.toNat ≤ s.row.toNat * s.lat.stride.toNat := Nat.mul_le_mul_right _ (h hp).1
      have hc := (h hp).2
      have : outAddress s r c < memBytes := by unfold outAddress at *; omega
      simp [hp, memRead_ok _ this]
    · simp [hp]
  unfold filterByte
  dsimp only
  rw [memRead_ok _ hx, Run.bind_ok, hn _ _ _ (fun _ => ⟨le_refl _, Nat.sub_le _ _⟩), Run.bind_ok,
    hn _ _ _ (fun _ => ⟨Nat.sub_le _ _, le_refl _⟩), Run.bind_ok,
    hn _ _ _ (fun _ => ⟨Nat.sub_le _ _, Nat.sub_le _ _⟩), Run.bind_ok, memWrite_ok _ _ ho, Run.bind_ok]

/-- The columns of a row (R128) change the memory and COL only, and keep the canonical form. -/
theorem filterColumns_all (pred : Predictor) (n : Nat) {s : State}
    (hn : s.col.toNat + n ≤ s.lat.stride.toNat)
    (hx : filteredAddress s s.row.toNat s.lat.stride.toNat ≤ memBytes)
    (ho : outAddress s s.row.toNat s.lat.stride.toNat ≤ memBytes) :
    (filterColumns pred n s).All False
      (fun _ t => t = { s with mem := t.mem, col := t.col } ∧ (s.mem.wf → t.mem.wf))
      (fun _ _ => False) := by
  induction n generalizing s with
  | zero => exact ⟨rfl, id⟩
  | succ n ih =>
    have h1 : filteredAddress s s.row.toNat s.col.toNat < memBytes := by unfold filteredAddress at *; omega
    have h2 : outAddress s s.row.toNat s.col.toNat < memBytes := by unfold outAddress at *; omega
    unfold filterColumns
    rw [filterByte_ok pred s h1 h2, Run.bind_ok]
    have hcol : (s.col + 1).toNat = s.col.toNat + 1 := by
      have := s.lat.stride.isLt
      rw [BitVec.toNat_add]; simp; omega
    refine Run.All.imp (ih ?_ ?_ ?_) id ?_ ?_
    · show (s.col + 1).toNat + n ≤ s.lat.stride.toNat; omega
    · exact hx
    · exact ho
    · rintro _ t ⟨h3, h4⟩
      exact ⟨h3, fun w => h4 (Memory.write_wf _ w h2)⟩
    · exact fun _ _ h => h

/-! ### The configuration check -/

/-- Everything the end of a passed check can do (R140): stop when a host duty is broken, else the cursor on segment 0 and
ZLIB_HEADER. -/
theorem beginStream_all (s : State) (h0 : 0 < s.lat.nseg.toNat) :
    (beginStream s).All True
      (fun _ t => regionsFit s = true ∧ buffersDisjoint s = true ∧ t.cur.bit = 0
        ∧ t = goto .zlibHeader { s with cur := t.cur })
      (fun _ _ => False) := by
  unfold beginStream
  split
  · trivial
  split
  · trivial
  rename_i h1 h2
  have h1' : regionsFit s = true := by simpa using h1
  have h2' : buffersDisjoint s = true := by simpa using h2
  have ht : tableReadable s := by
    unfold regionsFit at h1'
    simp only [Bool.and_eq_true] at h1'
    have := h1'.1.1.1
    unfold Region.fits tableRegion at this
    simpa [tableReadable] using this
  unfold cursorInit
  rw [loadSegment_all ht h0]
  exact ⟨h1', h2', rfl, rfl⟩

/-- Everything CONFIG_CHECK can do (R140): raise UnsupportedImageFormat or MissingHeaderOrData with the sizes as they were,
stop on a broken host duty, or pass with a supported image whose work buffer is within the bound. -/
theorem configCheckWith_all (maxWork : Nat) (s : State) :
    (configCheckWith maxWork s).All True
      (fun _ t => ∃ bpp, (bpp = 3 ∨ bpp = 4) ∧ bpp = bytesPerPixel s.cfg.colorType
        ∧ s.cfg.ihdrWidth ≠ 0 ∧ s.cfg.ihdrHeight ≠ 0 ∧ s.cfg.segCount ≠ 0
        ∧ workBytes s.cfg.ihdrWidth.toNat s.cfg.ihdrHeight.toNat bpp ≤ maxWork
        ∧ t.cur.bit = 0
        ∧ ∃ u, u = latchSizes bpp { latchConfig s with lat := { (latchConfig s).lat with bpp := BitVec.ofNat 3 bpp } }
          ∧ regionsFit u = true ∧ t = goto .zlibHeader { u with cur := t.cur })
      (fun e t => (e = .missingHeaderOrData ∨ e = .unsupportedImageFormat) ∧ ∃ l, t = { s with lat := l }) := by
  unfold configCheckWith
  dsimp only
  split
  · exact ⟨.inl rfl, _, rfl⟩
  split
  · exact ⟨.inr rfl, _, rfl⟩
  split
  · exact ⟨.inl rfl, _, rfl⟩
  split
  · exact ⟨.inr rfl, _, rfl⟩
  rename_i h1 h2 h3 h4
  have hf : formatSupported s.cfg.ihdrWidth s.cfg.ihdrHeight s.cfg.bitDepth s.cfg.colorType s.cfg.compression
      s.cfg.filter s.cfg.interlace = true := by simpa [latchConfig] using h2
  unfold formatSupported at hf
  simp only [Bool.and_eq_true, bne_iff_ne] at hf
  have hn : s.cfg.segCount ≠ 0 := h3
  refine (beginStream_all _ ?_).imp id ?_ (fun _ _ h => h.elim)
  · show 0 < s.cfg.segCount.toNat
    exact Nat.pos_of_ne_zero fun h => hn (BitVec.eq_of_toNat_eq h)
  · rintro _ t ⟨h5, h6, h7, h8⟩
    refine ⟨bytesPerPixel s.cfg.colorType, ?_, rfl, hf.1.2, hf.2, hn, not_lt.1 h4, h7, _, rfl, h5, h8⟩
    unfold bytesPerPixel; split <;> simp

end Sys2Proof.Machine
end

