-- ==== Sys2Proof/Laws/PerInstr.lean ====
section
/-! SUPPORT. The family RowMatch, one lemma per constructor: the word `encode` writes for an instruction carries the bits that
its row of spec/opcode_table.json fixes. -/

namespace Sys2Proof.Laws.RowMatch

/-- The encoded word agrees with the row's match under the row's mask. -/
def Statement (i : Instr) : Prop := encode i &&& (rowBits i).mask = (rowBits i).value

/-- The low byte of a register write's word is the offset, under any mask of the low byte. -/
theorem low_byte (data : Word) (o m : BitVec 8) :
    (data ++ o : BitVec 40) &&& m.setWidth 40 = (o &&& m).setWidth 40 := by
  ext k hk
  simp only [BitVec.getElem_and, BitVec.getElem_append, BitVec.getElem_setWidth, BitVec.getLsbD_and]
  by_cases h : k < 8
  · simp [h]
  · simp [h, BitVec.getLsbD_of_ge m k (by omega), BitVec.getLsbD_of_ge o k (by omega)]

/-- The low three bits of a CTRL write's word, under any mask of them. -/
theorem low_bits (reserved : BitVec 29) (low m : BitVec 3) :
    (reserved ++ low : BitVec 32).setWidth 40 &&& m.setWidth 40 = (low &&& m).setWidth 40 := by
  ext k hk
  simp only [BitVec.getElem_and, BitVec.getElem_setWidth, BitVec.getLsbD_and, BitVec.getLsbD_append]
  by_cases h : k < 3
  · simp [h]
  · simp [h, BitVec.getLsbD_of_ge m k (by omega), BitVec.getLsbD_of_ge low k (by omega)]

theorem ctrl_bits (reserved : BitVec 29) (a : BitVec 1) (b : BitVec 2) :
    (reserved ++ a ++ b : BitVec 32) = reserved ++ (a ++ b : BitVec 3) := by
  rw [BitVec.append_assoc]; rfl

theorem zhdr (cinfo : BitVec 4) : Statement (.zhdr cinfo) := by
  revert cinfo; unfold Statement; decide

theorem zhdrBadCm0To7 (cinfo : BitVec 4) (cm : BitVec 3) :
    Statement (.zhdrBadCm0To7 cinfo cm) := by
  revert cinfo cm; unfold Statement; decide

theorem zhdrBadCm9 (cinfo : BitVec 4) :
    Statement (.zhdrBadCm9 cinfo) := by
  revert cinfo; unfold Statement; decide

theorem zhdrBadCm10To11 (cinfo : BitVec 4) (low : BitVec 1) :
    Statement (.zhdrBadCm10To11 cinfo low) := by
  revert cinfo low; unfold Statement; decide

theorem zhdrBadCm12To15 (cinfo : BitVec 4) (low : BitVec 2) :
    Statement (.zhdrBadCm12To15 cinfo low) := by
  revert cinfo low; unfold Statement; decide

theorem blockStored (bfinal : BitVec 1) :
    Statement (.blockStored bfinal) := by
  revert bfinal; unfold Statement; decide

theorem blockFixed (bfinal : BitVec 1) :
    Statement (.blockFixed bfinal) := by
  revert bfinal; unfold Statement; decide

theorem blockDynamic (bfinal : BitVec 1) :
    Statement (.blockDynamic bfinal) := by
  revert bfinal; unfold Statement; decide

theorem blockReserved (bfinal : BitVec 1) :
    Statement (.blockReserved bfinal) := by
  revert bfinal; unfold Statement; decide

theorem cl (len : BitVec 4) : Statement (.cl len) := by
  revert len; unfold Statement; decide

theorem cl16 : Statement .cl16 := rfl

theorem cl17 : Statement .cl17 := rfl

theorem cl18 : Statement .cl18 := rfl

theorem lit (byte : BitVec 8) : Statement (.lit byte) := by
  revert byte; unfold Statement; decide

theorem eob : Statement .eob := rfl

theorem len257 : Statement .len257 := rfl

theorem len258 : Statement .len258 := rfl

theorem len259 : Statement .len259 := rfl

theorem len260 : Statement .len260 := rfl

theorem len261 : Statement .len261 := rfl

theorem len262 : Statement .len262 := rfl

theorem len263 : Statement .len263 := rfl

theorem len264 : Statement .len264 := rfl

theorem len265 : Statement .len265 := rfl

theorem len266 : Statement .len266 := rfl

theorem len267 : Statement .len267 := rfl

theorem len268 : Statement .len268 := rfl

theorem len269 : Statement .len269 := rfl

theorem len270 : Statement .len270 := rfl

theorem len271 : Statement .len271 := rfl

theorem len272 : Statement .len272 := rfl

theorem len273 : Statement .len273 := rfl

theorem len274 : Statement .len274 := rfl

theorem len275 : Statement .len275 := rfl

theorem len276 : Statement .len276 := rfl

theorem len277 : Statement .len277 := rfl

theorem len278 : Statement .len278 := rfl

theorem len279 : Statement .len279 := rfl

theorem len280 : Statement .len280 := rfl

theorem len281 : Statement .len281 := rfl

theorem len282 : Statement .len282 := rfl

theorem len283 : Statement .len283 := rfl

theorem len284 : Statement .len284 := rfl

theorem len285 : Statement .len285 := rfl

theorem llInvalid286To287 (low : BitVec 1) :
    Statement (.llInvalid286To287 low) := by
  revert low; unfold Statement; decide

theorem dist0 : Statement .dist0 := rfl

theorem dist1 : Statement .dist1 := rfl

theorem dist2 : Statement .dist2 := rfl

theorem dist3 : Statement .dist3 := rfl

theorem dist4 : Statement .dist4 := rfl

theorem dist5 : Statement .dist5 := rfl

theorem dist6 : Statement .dist6 := rfl

theorem dist7 : Statement .dist7 := rfl

theorem dist8 : Statement .dist8 := rfl

theorem dist9 : Statement .dist9 := rfl

theorem dist10 : Statement .dist10 := rfl

theorem dist11 : Statement .dist11 := rfl

theorem dist12 : Statement .dist12 := rfl

theorem dist13 : Statement .dist13 := rfl

theorem dist14 : Statement .dist14 := rfl

theorem dist15 : Statement .dist15 := rfl

theorem dist16 : Statement .dist16 := rfl

theorem dist17 : Statement .dist17 := rfl

theorem dist18 : Statement .dist18 := rfl

theorem dist19 : Statement .dist19 := rfl

theorem dist20 : Statement .dist20 := rfl

theorem dist21 : Statement .dist21 := rfl

theorem dist22 : Statement .dist22 := rfl

theorem dist23 : Statement .dist23 := rfl

theorem dist24 : Statement .dist24 := rfl

theorem dist25 : Statement .dist25 := rfl

theorem dist26 : Statement .dist26 := rfl

theorem dist27 : Statement .dist27 := rfl

theorem dist28 : Statement .dist28 := rfl

theorem dist29 : Statement .dist29 := rfl

theorem distInvalid30To31 (low : BitVec 1) :
    Statement (.distInvalid30To31 low) := by
  revert low; unfold Statement; decide

theorem ftNone : Statement .ftNone := rfl

theorem ftSub : Statement .ftSub := rfl

theorem ftUp : Statement .ftUp := rfl

theorem ftAverage : Statement .ftAverage := rfl

theorem ftPaeth : Statement .ftPaeth := rfl

theorem ftInvalid5 : Statement .ftInvalid5 := rfl

theorem ftInvalid6To7 (low : BitVec 1) :
    Statement (.ftInvalid6To7 low) := by
  revert low; unfold Statement; decide

theorem ftInvalid08To0F (low : BitVec 3) :
    Statement (.ftInvalid08To0F low) := by
  revert low; unfold Statement; decide

theorem ftInvalid10To1F (low : BitVec 4) :
    Statement (.ftInvalid10To1F low) := by
  revert low; unfold Statement; decide

theorem ftInvalid20To3F (low : BitVec 5) :
    Statement (.ftInvalid20To3F low) := by
  revert low; unfold Statement; decide

theorem ftInvalid40To7F (low : BitVec 6) :
    Statement (.ftInvalid40To7F low) := by
  revert low; unfold Statement; decide

theorem ftInvalid80ToFF (low : BitVec 7) :
    Statement (.ftInvalid80ToFF low) := by
  revert low; unfold Statement; decide

theorem softReset (start : BitVec 1) (irqEn : BitVec 1) (reserved : BitVec 29) :
    Statement (.softReset start irqEn reserved) := by
  have h : (reserved ++ irqEn ++ 1#1 ++ start : BitVec 32) = reserved ++ (irqEn ++ (1#1 ++ start) : BitVec 3) := by
    rw [BitVec.append_assoc, BitVec.append_assoc]; rfl
  show (reserved ++ irqEn ++ 1#1 ++ start : BitVec 32).setWidth 40 &&& (2#3).setWidth 40 = _
  rw [h, low_bits]
  clear h; show _ = (2#40 : BitVec 40); revert start irqEn; decide

theorem start (irqEn : BitVec 1) (reserved : BitVec 29) :
    Statement (.start irqEn reserved) := by
  show (reserved ++ irqEn ++ 1#2 : BitVec 32).setWidth 40 &&& (3#3).setWidth 40 = _
  rw [ctrl_bits, low_bits]
  show _ = (1#40 : BitVec 40)
  revert irqEn; decide

theorem setIrqEn (irqEn : BitVec 1) (reserved : BitVec 29) :
    Statement (.setIrqEn irqEn reserved) := by
  show (reserved ++ irqEn ++ 0#2 : BitVec 32).setWidth 40 &&& (3#3).setWidth 40 = _
  rw [ctrl_bits, low_bits]
  show _ = (0#40 : BitVec 40)
  revert irqEn; decide

theorem readStatus : Statement .readStatus := rfl

theorem writeIhdrWidth (data : Word) : Statement (.writeIhdrWidth data) :=
  low_byte data 0x08#8 0xFC#8

theorem writeIhdrHeight (data : Word) : Statement (.writeIhdrHeight data) :=
  low_byte data 0x0C#8 0xFC#8

theorem writeIhdrFmt0 (data : Word) : Statement (.writeIhdrFmt0 data) :=
  low_byte data 0x10#8 0xFC#8

theorem writeIhdrFmt1 (data : Word) : Statement (.writeIhdrFmt1 data) :=
  low_byte data 0x14#8 0xFC#8

theorem writeSegtabBase (data : Word) : Statement (.writeSegtabBase data) :=
  low_byte data 0x18#8 0xFC#8

theorem writeSegCount (data : Word) : Statement (.writeSegCount data) :=
  low_byte data 0x1C#8 0xFC#8

theorem writeWorkBase (data : Word) : Statement (.writeWorkBase data) :=
  low_byte data 0x20#8 0xFC#8

theorem writeOutBase (data : Word) : Statement (.writeOutBase data) :=
  low_byte data 0x24#8 0xFC#8

theorem chunkIhdr : Statement .chunkIhdr := rfl

theorem chunkIdat : Statement .chunkIdat := rfl

theorem chunkOther (tag : BitVec 32) : Statement (.chunkOther tag) := BitVec.and_zero

end Sys2Proof.Laws.RowMatch
end

