-- ==== Sys2Proof/Tests/Slice0.lean ====
section
/-! SUPPORT. The model's own tests: ill-formed terms refused; every constructor decoded from a word written out from the spec's
encoding; single steps with results taken from the spec's examples (the rule is named at each test); and, for every statement of
the provers that has hypotheses, a state that meets them. -/

namespace Sys2Proof.Machine.Test

/-! ### Small states -/

/-- Bytes put into memory from an address on. -/
def putAll : Nat → List Byte → Memory → Memory
  | _, [], m => m
  | a, b :: t, m => putAll (a + 1) t (m.write a b)

/-- A decode of a 1 × 1 RGBA image (STRIDE 4, WORK_SIZE 5, OUT_SIZE 4): table at 0, one segment of the given bytes at 0x100,
work buffer at 0x1000, output buffer at 0x2000, cursor on the first bit; the regions are the engine's. -/
def streamState (st : EngineState) (bytes : List Byte) : State :=
  { State.reset with
    st := st
    cfg := ⟨1, 1, 0x608, 0x100, 0, 1, 0x1000, 0x2000⟩
    lat := ⟨1, 1, 4, 4, 0, 1, 0x1000, 0x2000⟩
    sizes := ⟨4, 5, 4⟩
    cur := ⟨0, 0x100, BitVec.ofNat 32 bytes.length, 0⟩
    mem := putAll 0x100 bytes (putAll 0 [0, 1, 0, 0, BitVec.ofNat 8 bytes.length, 0, 0, 0] ⟨[]⟩)
    loan := some .empty }

/-- The same with bytes of inflate output in the work buffer. -/
def workState (st : EngineState) (bytes work : List Byte) : State :=
  { streamState st bytes with
    mem := putAll 0x1000 work (streamState st bytes).mem
    outCount := BitVec.ofNat 32 work.length }

/-- A filter pass over `h` rows of `w` pixels of `bpp` bytes: filtered bytes `work`, reconstructed rows `out`, row `row`. -/
def filterState (w h bpp row : Nat) (work out : List Byte) : State :=
  { State.reset with
    st := .filter
    lat := ⟨BitVec.ofNat 32 w, BitVec.ofNat 32 h, BitVec.ofNat 3 bpp, BitVec.ofNat 32 (w * bpp), 0, 1, 0x1000, 0x2000⟩
    sizes := ⟨BitVec.ofNat 3 bpp, BitVec.ofNat 32 (h * (1 + w * bpp)), BitVec.ofNat 32 (h * (w * bpp))⟩
    outCount := BitVec.ofNat 32 (h * (1 + w * bpp))
    row := BitVec.ofNat 32 row
    mem := putAll 0x2000 out (putAll 0x1000 work ⟨[]⟩) }

/-- A state whose host has one action due. -/
def hostState (a : HostAction) (s : State) : State := { s with hostQueue := [⟨0, a⟩] }

/-- Bytes of memory from an address on. -/
def bytesAt (m : Memory) (a n : Nat) : List Byte := (List.range n).map fun k => m.read (a + k)

/-- A test of the next state; a fault or a refusal fails it. -/
def after (o : Host.Outcome State Fault Refusal) (p : State → Bool) : Bool :=
  match o with
  | .next t => p t
  | .fault _ => false
  | .refused _ => false

/-- The next state entered ERROR with this code, recording this state (R147). -/
def failsWith (o : Host.Outcome State Fault Refusal) (e : ErrorCode) (st : EngineState) : Bool :=
  after o fun t => t.st == .error && t.errCode == e && t.errState == st

/-! ### Well-formedness -/

theorem test_wellFormed_refuses_ihdr_tag : WellFormed (.chunkOther 0x49484452) = false := by decide
theorem test_wellFormed_refuses_idat_tag : WellFormed (.chunkOther 0x49444154) = false := by decide
theorem test_wellFormed_admits_iend_tag : WellFormed (.chunkOther 0x49454E44) = true := by decide

/-! ### Decoding, from words written out -/

/-- R56: CINFO in bits 7:4, CM in bits 3:0. -/
theorem test_decode_zlib_cmf :
    decode .zlibCmf 0b01111000#40 = .ok (.zhdr 7)
    ∧ decode .zlibCmf 0b00101011#40 = .ok (.zhdrBadCm10To11 2 1)
    ∧ decode .zlibCmf 0b11110101#40 = .ok (.zhdrBadCm0To7 15 5)
    ∧ decode .zlibCmf 0b00011001#40 = .ok (.zhdrBadCm9 1)
    ∧ decode .zlibCmf 0b10001110#40 = .ok (.zhdrBadCm12To15 8 2) := by
  refine ⟨?_, ?_, ?_, ?_, ?_⟩ <;> decide

/-- R57: BFINAL in bit 0, BTYPE in bits 2:1. -/
theorem test_decode_block_header :
    decode .blockHeader 0b001#40 = .ok (.blockStored 1)
    ∧ decode .blockHeader 0b010#40 = .ok (.blockFixed 0)
    ∧ decode .blockHeader 0b101#40 = .ok (.blockDynamic 1)
    ∧ decode .blockHeader 0b111#40 = .ok (.blockReserved 1) := by
  refine ⟨?_, ?_, ?_, ?_⟩ <;> decide

/-- R61: symbols 0 to 18. -/
theorem test_decode_cl_symbols :
    decode .clSymbol 0b01111#40 = .ok (.cl 15)
    ∧ decode .clSymbol 0b10000#40 = .ok .cl16
    ∧ decode .clSymbol 0b10001#40 = .ok .cl17
    ∧ decode .clSymbol 0b10010#40 = .ok .cl18
    ∧ decode .clSymbol 0b10011#40 = .error .noSuchSymbol := by
  refine ⟨?_, ?_, ?_, ?_, ?_⟩ <;> decide

/-- R62, R72: 0 to 255, 256, 286 and 287; 288 has no row. -/
theorem test_decode_literals_and_end :
    decode .litlenSymbol 0b011111111#40 = .ok (.lit 255)
    ∧ decode .litlenSymbol 0b100000000#40 = .ok .eob
    ∧ decode .litlenSymbol 0b100011110#40 = .ok (.llInvalid286To287 0)
    ∧ decode .litlenSymbol 0b100011111#40 = .ok (.llInvalid286To287 1)
    ∧ decode .litlenSymbol 0b100100000#40 = .error .noSuchSymbol := by
  refine ⟨?_, ?_, ?_, ?_, ?_⟩ <;> decide

/-- R67: 257 to 285. -/
theorem test_decode_length_symbols :
    decode .litlenSymbol 257#40 = .ok .len257
    ∧ decode .litlenSymbol 258#40 = .ok .len258
    ∧ decode .litlenSymbol 259#40 = .ok .len259
    ∧ decode .litlenSymbol 260#40 = .ok .len260
    ∧ decode .litlenSymbol 261#40 = .ok .len261
    ∧ decode .litlenSymbol 262#40 = .ok .len262
    ∧ decode .litlenSymbol 263#40 = .ok .len263
    ∧ decode .litlenSymbol 264#40 = .ok .len264
    ∧ decode .litlenSymbol 265#40 = .ok .len265
    ∧ decode .litlenSymbol 266#40 = .ok .len266
    ∧ decode .litlenSymbol 267#40 = .ok .len267
    ∧ decode .litlenSymbol 268#40 = .ok .len268
    ∧ decode .litlenSymbol 269#40 = .ok .len269
    ∧ decode .litlenSymbol 270#40 = .ok .len270
    ∧ decode .litlenSymbol 271#40 = .ok .len271
    ∧ decode .litlenSymbol 272#40 = .ok .len272
    ∧ decode .litlenSymbol 273#40 = .ok .len273
    ∧ decode .litlenSymbol 274#40 = .ok .len274
    ∧ decode .litlenSymbol 275#40 = .ok .len275
    ∧ decode .litlenSymbol 276#40 = .ok .len276
    ∧ decode .litlenSymbol 277#40 = .ok .len277
    ∧ decode .litlenSymbol 278#40 = .ok .len278
    ∧ decode .litlenSymbol 279#40 = .ok .len279
    ∧ decode .litlenSymbol 280#40 = .ok .len280
    ∧ decode .litlenSymbol 281#40 = .ok .len281
    ∧ decode .litlenSymbol 282#40 = .ok .len282
    ∧ decode .litlenSymbol 283#40 = .ok .len283
    ∧ decode .litlenSymbol 284#40 = .ok .len284
    ∧ decode .litlenSymbol 285#40 = .ok .len285 := by
  refine ⟨?_, ?_, ?_, ?_, ?_, ?_, ?_, ?_, ?_, ?_, ?_, ?_, ?_, ?_, ?_, ?_, ?_, ?_, ?_, ?_, ?_, ?_, ?_, ?_, ?_, ?_, ?_, ?_, ?_⟩ <;> decide

/-- R68, R72: 0 to 29, then the two invalid ones. -/
theorem test_decode_distance_symbols :
    decode .distSymbol 0#40 = .ok .dist0
    ∧ decode .distSymbol 1#40 = .ok .dist1
    ∧ decode .distSymbol 2#40 = .ok .dist2
    ∧ decode .distSymbol 3#40 = .ok .dist3
    ∧ decode .distSymbol 4#40 = .ok .dist4
    ∧ decode .distSymbol 5#40 = .ok .dist5
    ∧ decode .distSymbol 6#40 = .ok .dist6
    ∧ decode .distSymbol 7#40 = .ok .dist7
    ∧ decode .distSymbol 8#40 = .ok .dist8
    ∧ decode .distSymbol 9#40 = .ok .dist9
    ∧ decode .distSymbol 10#40 = .ok .dist10
    ∧ decode .distSymbol 11#40 = .ok .dist11
    ∧ decode .distSymbol 12#40 = .ok .dist12
    ∧ decode .distSymbol 13#40 = .ok .dist13
    ∧ decode .distSymbol 14#40 = .ok .dist14
    ∧ decode .distSymbol 15#40 = .ok .dist15
    ∧ decode .distSymbol 16#40 = .ok .dist16
    ∧ decode .distSymbol 17#40 = .ok .dist17
    ∧ decode .distSymbol 18#40 = .ok .dist18
    ∧ decode .distSymbol 19#40 = .ok .dist19
    ∧ decode .distSymbol 20#40 = .ok .dist20
    ∧ decode .distSymbol 21#40 = .ok .dist21
    ∧ decode .distSymbol 22#40 = .ok .dist22
    ∧ decode .distSymbol 23#40 = .ok .dist23
    ∧ decode .distSymbol 24#40 = .ok .dist24
    ∧ decode .distSymbol 25#40 = .ok .dist25
    ∧ decode .distSymbol 26#40 = .ok .dist26
    ∧ decode .distSymbol 27#40 = .ok .dist27
    ∧ decode .distSymbol 28#40 = .ok .dist28
    ∧ decode .distSymbol 29#40 = .ok .dist29
    ∧ decode .distSymbol 30#40 = .ok (.distInvalid30To31 0)
    ∧ decode .distSymbol 31#40 = .ok (.distInvalid30To31 1) := by
  refine ⟨?_, ?_, ?_, ?_, ?_, ?_, ?_, ?_, ?_, ?_, ?_, ?_, ?_, ?_, ?_, ?_, ?_, ?_, ?_, ?_, ?_, ?_, ?_, ?_, ?_, ?_, ?_, ?_, ?_, ?_, ?_, ?_⟩ <;> decide

/-- R64, R72: 0 to 4, and the unrecognized ones by range. -/
theorem test_decode_filter_types :
    decode .filterType 0x00#40 = .ok .ftNone
    ∧ decode .filterType 0x01#40 = .ok .ftSub
    ∧ decode .filterType 0x02#40 = .ok .ftUp
    ∧ decode .filterType 0x03#40 = .ok .ftAverage
    ∧ decode .filterType 0x04#40 = .ok .ftPaeth
    ∧ decode .filterType 0x05#40 = .ok .ftInvalid5
    ∧ decode .filterType 0x07#40 = .ok (.ftInvalid6To7 1)
    ∧ decode .filterType 0x0D#40 = .ok (.ftInvalid08To0F 5)
    ∧ decode .filterType 0x1A#40 = .ok (.ftInvalid10To1F 10)
    ∧ decode .filterType 0x20#40 = .ok (.ftInvalid20To3F 0)
    ∧ decode .filterType 0x7F#40 = .ok (.ftInvalid40To7F 63)
    ∧ decode .filterType 0xFE#40 = .ok (.ftInvalid80ToFF 126) := by
  refine ⟨?_, ?_, ?_, ?_, ?_, ?_, ?_, ?_, ?_, ?_, ?_, ?_⟩ <;> decide

/-- R16, R138: START bit 0, SOFT_RESET bit 1, IRQ_EN bit 2, the rest ignored. -/
theorem test_decode_ctrl_writes :
    decode .ctrlWrite 0b010#40 = .ok (.softReset 0 0 0)
    ∧ decode .ctrlWrite 0b111#40 = .ok (.softReset 1 1 0)
    ∧ decode .ctrlWrite 0b001#40 = .ok (.start 0 0)
    ∧ decode .ctrlWrite 0xFFFFFFFD#40 = .ok (.start 1 0x1FFFFFFF)
    ∧ decode .ctrlWrite 0b100#40 = .ok (.setIrqEn 1 0)
    ∧ decode .ctrlWrite 0b1000#40 = .ok (.setIrqEn 0 1) := by
  refine ⟨?_, ?_, ?_, ?_, ?_, ?_⟩ <;> decide

/-- R15, R144, R145: the offset in bits 7:0, the data above it. -/
theorem test_decode_register_accesses :
    decode .regRead 0x04#40 = .ok .readStatus
    ∧ decode .regRead 0x05#40 = .error .unalignedOffset
    ∧ decode .regRead 0x08#40 = .error .noSuchRegister
    ∧ decode .regWrite 0x89ABCDEF08#40 = .ok (.writeIhdrWidth 0x89ABCDEF)
    ∧ decode .regWrite 0x89ABCDEF0C#40 = .ok (.writeIhdrHeight 0x89ABCDEF)
    ∧ decode .regWrite 0x89ABCDEF10#40 = .ok (.writeIhdrFmt0 0x89ABCDEF)
    ∧ decode .regWrite 0x89ABCDEF14#40 = .ok (.writeIhdrFmt1 0x89ABCDEF)
    ∧ decode .regWrite 0x89ABCDEF18#40 = .ok (.writeSegtabBase 0x89ABCDEF)
    ∧ decode .regWrite 0x89ABCDEF1C#40 = .ok (.writeSegCount 0x89ABCDEF)
    ∧ decode .regWrite 0x89ABCDEF20#40 = .ok (.writeWorkBase 0x89ABCDEF)
    ∧ decode .regWrite 0x89ABCDEF24#40 = .ok (.writeOutBase 0x89ABCDEF)
    ∧ decode .regWrite 0x28#40 = .error .noSuchRegister := by
  refine ⟨?_, ?_, ?_, ?_, ?_, ?_, ?_, ?_, ?_, ?_, ?_, ?_⟩ <;> decide

/-- R85 to R87: "IHDR", "IDAT", and any other tag, one that differs in case only included. -/
theorem test_decode_chunk_types :
    decode .pngChunkType 0x49484452#40 = .ok .chunkIhdr
    ∧ decode .pngChunkType 0x49444154#40 = .ok .chunkIdat
    ∧ decode .pngChunkType 0x49646174#40 = .ok (.chunkOther 0x49646174)
    ∧ decode .pngChunkType 0x49454E44#40 = .ok (.chunkOther 0x49454E44) := by
  refine ⟨?_, ?_, ?_, ?_⟩ <;> decide

theorem test_decode_refuses_stray_bits :
    decode .blockHeader 0b1000#40 = .error .strayBits
    ∧ decode .distSymbol 0b100000#40 = .error .strayBits := by
  refine ⟨?_, ?_⟩ <;> decide

/-- The format of a bare table word is the model's choice (log 3). -/
theorem test_decodeTableWord :
    decodeTableWord 8 0x1D = some .dist29
    ∧ decodeTableWord 8 0xFF = some (.ftInvalid80ToFF 127)
    ∧ decodeTableWord 16 0x11D = some .len285
    ∧ decodeTableWord 32 0x5 = some (.start 1 0) := by
  refine ⟨?_, ?_, ?_, ?_⟩ <;> decide

/-! ### Bit reader and Huffman tables -/

/-- R76: byte 0x63 gives the bits 1,1,0,0,0,1,1,0. -/
theorem test_byte_bits : restBits (streamState .blockHeader [0x63]) = [true, true, false, false, false, true, true, false] := by
  decide

/-- R77: of the stream 63 58, `read_bits(1)` = 1, `read_bits(2)` = 1, `read_bits(8)` = 0x0C. -/
theorem test_readBits : (match (readBits 1 (streamState .blockHeader [0x63, 0x58])).bind fun a s =>
      (readBits 2 s).bind fun b s => (readBits 8 s).bind fun c s => .ok [a, b, c] s with
    | .ok v _ => v == [1, 1, 0x0C]
    | _ => false) = true := by decide

/-- R78: cursor (0, a+2, 7, 3) becomes (0, a+3, 6, 0). -/
theorem test_alignToByte :
    (alignToByte { State.reset with cur := ⟨0, 0x102, 7, 3⟩ }).cur = ⟨0, 0x103, 6, 0⟩ := by decide

/-- R75: segments of 9, 0 and 13 bytes, the first exhausted: the cursor ends at (2, a2, 13, 0). -/
theorem test_ensureByte_skips_empty_segment :
    (match ensureByte { State.reset with
        lat := ⟨0, 0, 0, 0, 0, 3, 0, 0⟩
        cur := ⟨0, 0x109, 0, 0⟩
        mem := putAll 0 [0, 1, 0, 0, 9, 0, 0, 0, 0, 2, 0, 0, 0, 0, 0, 0, 0, 3, 0, 0, 13, 0, 0, 0] ⟨[]⟩ } with
    | .ok _ t => t.cur == ⟨2, 0x300, 13, 0⟩
    | _ => false) = true := by decide

/-- R92: the lengths 3,3,3,3,3,2,4,4, whatever number the first unspecified entry has. -/
theorem test_build : ∀ d ∈ [0, 7],
    ((build llShape [3, 3, 3, 3, 3, 2, 4, 4] d).n, (build llShape [3, 3, 3, 3, 3, 2, 4, 4] d).max) = (8, 4)
    ∧ (build llShape [3, 3, 3, 3, 3, 2, 4, 4] d).count.toList = [0, 0, 1, 5, 2, 0, 0, 0, 0, 0, 0, 0, 0, 0, 0, 0]
    ∧ (build llShape [3, 3, 3, 3, 3, 2, 4, 4] d).sym.toList.take 8 = [5, 0, 1, 2, 3, 4, 6, 7] := by decide

/-- R94: with the same lengths, 1111 is symbol 7 (read order, so the byte is 0x0F). -/
theorem test_huffDecode : (match huffDecode (build llShape [3, 3, 3, 3, 3, 2, 4, 4] 0) (streamState .blockBody [0x0F]) with
    | .ok v t => v == 7 && t.cur.bit == 4
    | _ => false) = true := by decide

/-- R96: one code of length 1 decodes bit 0, and bit 1 is corrupt. -/
theorem test_huffDecode_single : (match huffDecode (build dtShape [0, 1] 0) (streamState .blockBody [1]) with
    | .raise e _ => e == .corruptHuffmanStream
    | _ => false) = true := by decide

/-! ### zlib header and blocks -/

/-- R100: 78 01 passes; FLG is read. -/
theorem test_zhdr : after (step (streamState .zlibHeader [0x78, 0x01])) (fun t =>
    t.st == .blockHeader && t.cur == ⟨0, 0x102, 0, 0⟩) = true := by decide

/-- R100: 77 01 raises after one byte. -/
theorem test_zhdr_bad_method :
    failsWith (step (streamState .zlibHeader [0x77, 0x01])) .unsupportedCompressionMethod .zlibHeader = true := by decide

/-- R72: methods 9, 11 and 15. -/
theorem test_zhdr_other_methods :
    ((([.zhdrBadCm9 7, .zhdrBadCm10To11 7 1, .zhdrBadCm12To15 7 3] : List Instr).map fun i =>
      failsWith (exec i (streamState .zlibHeader [])) .unsupportedCompressionMethod .zlibHeader) == [true, true, true]) = true := by
  decide

/-- R148: a valid CMF with no FLG is truncated. -/
theorem test_zhdr_truncated : failsWith (step (streamState .zlibHeader [0x78])) .truncatedInput .zlibHeader = true := by decide

/-- R101: header byte 0x01 is a final stored block. -/
theorem test_block_stored : after (step (streamState .blockHeader [0x01])) (fun t =>
    t.st == .storedBlock && t.bfinal == 1 && t.btype == 0 && t.blockCount == 1) = true := by decide

/-- R101: BFINAL is written before BTYPE is read: with the bits 1, 0 left the header is cut short and BFINAL is 1. -/
theorem test_block_header_cut_short :
    after (step { streamState .blockHeader [0x40] with cur := ⟨0, 0x100, 1, 6⟩ }) (fun t =>
      t.st == .error && t.errCode == .truncatedInput && t.bfinal == 1) = true := by decide

/-- R57: 0x02 is a fixed block, not final; 0x05 a final dynamic block. -/
theorem test_block_fixed_dynamic :
    (after (step (streamState .blockHeader [0x02])) (fun t => t.st == .fixedTables && t.bfinal == 0)
      && after (step (streamState .blockHeader [0x05])) (fun t => t.st == .dynamicTables && t.bfinal == 1)) = true := by decide

/-- R101: byte 0x07 raises ReservedBlockType; the latches are written. -/
theorem test_block_reserved : (failsWith (step (streamState .blockHeader [0x07])) .reservedBlockType .blockHeader
    && after (step (streamState .blockHeader [0x07])) (fun t => t.bfinal == 1 && t.btype == 3)) = true := by decide

/-- R103, R104: 05 00 FA FF is LEN 5; the five bytes of P1 are appended. -/
theorem test_stored_block : after (step { streamState .storedBlock [5, 0, 0xFA, 0xFF, 0, 1, 2, 3, 4] with bfinal := 1 }) (fun t =>
    t.st == .trailer && t.outCount == 5 && bytesAt t.mem 0x1000 5 == [0, 1, 2, 3, 4]) = true := by decide

/-- R117, R104: a sixth byte does not fit a work buffer of five. -/
theorem test_stored_block_too_long :
    failsWith (step (streamState .storedBlock [6, 0, 0, 0, 0, 1, 2, 3, 4, 5])) .outputSizeMismatch .storedBlock = true := by
  decide

/-- R106, R107: fields 1, 0, 14, then the lengths of R107's example: 18 has 2, 0 has 3, 2 has 1, 1 has 3. -/
theorem test_dynamic_header :
    after (step (streamState .dynamicTables [0x01, 0x38, 0xA0, 0x01, 0x00, 0x00, 0x00, 0x08, 0x06])) (fun t =>
      t.dyn.hlit == 258 && t.dyn.hdist == 1 && t.dyn.hclen == 18 && t.phase == .clSymbols
        && t.clt.len.toList == [3, 3, 1, 0, 0, 0, 0, 0, 0, 0, 0, 0, 0, 0, 0, 0, 0, 0, 2]) = true := by decide

/-- R109: `CL 8` at NL = 5 sets LENS[5] = 8 and NL = 6. -/
theorem test_cl : after (exec (.cl 8) { State.reset with dyn := { State.reset.dyn with nl := 5 } }) (fun t =>
    t.dyn.nl == 6 && t.dyn.lens.getD 5 0 == 8) = true := by decide

/-- A header with HLIT 257, HDIST 1 and some lengths read. -/
def dynState (bytes : List Byte) (lens : List (BitVec 4)) : State :=
  { streamState .dynamicTables bytes with
    phase := .clSymbols
    dyn := ⟨257, 1, 4, lens ++ List.replicate (320 - lens.length) 0, BitVec.ofNat 9 lens.length⟩ }

/-- R110: LENS 2,0,7 and `CL 16 +1`: LENS[3..6] = 7, NL = 7. -/
theorem test_cl16 : after (exec .cl16 (dynState [0x01] [2, 0, 7])) (fun t =>
    t.dyn.nl == 7 && t.dyn.lens.take 8 == [2, 0, 7, 7, 7, 7, 7, 0]) = true := by decide

/-- R110: no previous length. -/
theorem test_cl16_first : failsWith (exec .cl16 (dynState [0x01] [])) .invalidCodeLengths .dynamicTables = true := by decide

/-- R111: `CL 17 +7` appends ten 0 entries. -/
theorem test_cl17 : after (exec .cl17 (dynState [0x07] [5])) (fun t => t.dyn.nl == 11) = true := by decide

/-- R112: `CL 18 +127` appends 138 zeros, `CL 18 +0` 11. -/
theorem test_cl18 : (after (exec .cl18 (dynState [0x7F] [])) (fun t => t.dyn.nl == 138)
    && after (exec .cl18 (dynState [0x00] [])) (fun t => t.dyn.nl == 11)) = true := by decide

set_option maxRecDepth 4000 in
/-- R105: `LL.count[7]` = 24, `LL.count[8]` = 152, `LL.count[9]` = 112. -/
theorem test_fixed_tables : after (step (streamState .fixedTables [])) (fun t =>
    t.st == .blockBody && t.ll.n == 288 && t.ll.count.toList == [0, 0, 0, 0, 0, 0, 0, 24, 152, 112, 0, 0, 0, 0, 0, 0]
      && t.dt.count.toList.getD 5 0 == 32 && t.dt.max == 5) = true := by decide

/-- R114: the trailer's four bytes are read, whatever they hold. -/
theorem test_trailer : after (step (streamState .trailer [0, 0x19, 0, 0x0B])) (fun t =>
    t.st == .sizeCheck && t.cur.rem == 0) = true := by decide

/-- R115: four bytes where five are needed. -/
theorem test_size_check_short :
    failsWith (step (workState .sizeCheck [] [0, 1, 2, 3])) .outputSizeMismatch .sizeCheck = true := by decide

/-! ### Block body -/

/-- R118: one literal. -/
theorem test_lit : after (exec (.lit 0xAA) (workState .blockBody [] [1, 2])) (fun t =>
    t.outCount == 3 && bytesAt t.mem 0x1000 3 == [1, 2, 0xAA]) = true := by decide

/-- R117: at WORK_SIZE nothing more is written. -/
theorem test_lit_full :
    failsWith (exec (.lit 0xAA) (workState .blockBody [] [1, 2, 3, 4, 5])) .outputSizeMismatch .blockBody = true := by decide

/-- R119: TRAILER after the final block, else the next header. -/
theorem test_eob : (after (exec .eob { streamState .blockBody [] with bfinal := 1 }) (fun t => t.st == .trailer)
    && after (exec .eob { streamState .blockBody [] with bfinal := 0 }) (fun t => t.st == .blockHeader)) = true := by decide

/-- The COPY_LEN a length symbol leaves. -/
def copyLenOf (bytes : List Byte) (i : Instr) : Nat :=
  match exec i (streamState .blockBody bytes) with
  | .next t => t.copyLen.toNat
  | _ => 0

/-- The COPY_DIST a distance symbol leaves (an error entry keeps it). -/
def copyDistOf (bytes : List Byte) (i : Instr) : Nat :=
  match exec i (streamState .blockBody bytes) with
  | .next t => t.copyDist.toNat
  | _ => 0

/-- The length symbols in order. -/
def lengthInstrs : List Instr :=
  [.len257, .len258, .len259, .len260, .len261, .len262, .len263, .len264, .len265, .len266, .len267, .len268, .len269,
    .len270, .len271, .len272, .len273, .len274, .len275, .len276, .len277, .len278, .len279, .len280, .len281, .len282,
    .len283, .len284, .len285]

/-- R67: the first length of every row. -/
theorem test_shortest_lengths : lengthInstrs.map (copyLenOf [0, 0]) =
    [3, 4, 5, 6, 7, 8, 9, 10, 11, 13, 15, 17, 19, 23, 27, 31, 35, 43, 51, 59, 67, 83, 99, 115, 131, 163, 195, 227, 258] := by
  decide

/-- R67: the last length of every row. -/
theorem test_longest_lengths : lengthInstrs.map (copyLenOf [0xFF, 0xFF]) =
    [3, 4, 5, 6, 7, 8, 9, 10, 12, 14, 16, 18, 22, 26, 30, 34, 42, 50, 58, 66, 82, 98, 114, 130, 162, 194, 226, 258, 258] := by
  decide

/-- The distance symbols in order. -/
def distanceInstrs : List Instr :=
  [.dist0, .dist1, .dist2, .dist3, .dist4, .dist5, .dist6, .dist7, .dist8, .dist9, .dist10, .dist11, .dist12, .dist13,
    .dist14, .dist15, .dist16, .dist17, .dist18, .dist19, .dist20, .dist21, .dist22, .dist23, .dist24, .dist25, .dist26,
    .dist27, .dist28, .dist29]

/-- R68: the first distance of every row. -/
theorem test_shortest_distances : distanceInstrs.map (copyDistOf [0, 0]) =
    [1, 2, 3, 4, 5, 7, 9, 13, 17, 25, 33, 49, 65, 97, 129, 193, 257, 385, 513, 769, 1025, 1537, 2049, 3073, 4097, 6145, 8193,
      12289, 16385, 24577] := by decide

/-- R68: the last distance of every row. -/
theorem test_longest_distances : distanceInstrs.map (copyDistOf [0xFF, 0xFF]) =
    [1, 2, 3, 4, 6, 8, 12, 16, 24, 32, 48, 64, 96, 128, 192, 256, 384, 512, 768, 1024, 1536, 2048, 3072, 4096, 6144, 8192,
      12288, 16384, 24576, 32768] := by decide

/-- R120, R122: length 3, distance 2 after 01 02: the run repeats. -/
theorem test_match_copies_forward :
    after (exec .dist1 { workState .blockBody [] [1, 2] with copyLen := 3, phase := .distSymbol }) (fun t =>
      t.outCount == 5 && bytesAt t.mem 0x1000 5 == [1, 2, 1, 2, 1] && t.phase == .boundary) = true := by decide

/-- R121: distance 3 after two bytes. -/
theorem test_distance_too_far :
    failsWith (exec .dist2 { workState .blockBody [] [1, 2] with copyLen := 3, phase := .distSymbol })
      .invalidDistance .blockBody = true := by decide

/-- R124, R125: the invalid symbols. -/
theorem test_invalid_symbols :
    (failsWith (exec (.llInvalid286To287 0) (streamState .blockBody [])) .invalidSymbol .blockBody
      && failsWith (exec (.distInvalid30To31 1) (streamState .blockBody [])) .invalidSymbol .blockBody) = true := by decide

/-! ### Filter pass -/

/-- R131: 00 01 02 03 04, one RGBA pixel. -/
theorem test_filter_none : after (step (filterState 1 1 4 0 [0, 1, 2, 3, 4] [])) (fun t =>
    t.st == .done && bytesAt t.mem 0x2000 4 == [1, 2, 3, 4]) = true := by decide

/-- R132: 01 0A 14 1E 05 05 05 with BPP 3. -/
theorem test_filter_sub : after (step (filterState 2 1 3 0 [1, 0x0A, 0x14, 0x1E, 5, 5, 5] [])) (fun t =>
    bytesAt t.mem 0x2000 6 == [0x0A, 0x14, 0x1E, 0x0F, 0x19, 0x23]) = true := by decide

/-- R133: above 10 20 30, row 02 01 01 01. -/
theorem test_filter_up : after (step (filterState 1 2 3 1 [0, 0x10, 0x20, 0x30, 2, 1, 1, 1] [0x10, 0x20, 0x30])) (fun t =>
    bytesAt t.mem 0x2003 3 == [0x11, 0x21, 0x31] && t.row == 2) = true := by decide

/-- R134: a = 200, b = 100, x = 0x10 gives 0xA6; the sum does not wrap. -/
theorem test_filter_average :
    after (step (filterState 2 2 3 1 [0, 0, 0, 0, 100, 0, 0, 3, 200, 0, 0, 0x10, 0, 0] [0, 0, 0, 100, 0, 0])) (fun t =>
      bytesAt t.mem 0x2006 4 == [200, 0, 0, 0xA6] && t.st == .done) = true := by decide

/-- R135: the spec's four predictor values. -/
theorem test_paeth : paeth 10 20 15 = 15 ∧ paeth 10 20 30 = 10 ∧ paeth 10 0 20 = 0 ∧ paeth 7 7 7 = 7 := by decide

/-- R135: in row 0 Paeth acts as Sub. -/
theorem test_filter_paeth : after (step (filterState 2 1 3 0 [4, 0x0A, 0x14, 0x1E, 5, 5, 5] [])) (fun t =>
    bytesAt t.mem 0x2000 6 == [0x0A, 0x14, 0x1E, 0x0F, 0x19, 0x23]) = true := by decide

/-- R136: types 5, 6, 9, 17, 33, 65 and 255. -/
theorem test_filter_invalid : (([5, 6, 9, 17, 33, 65, 255] : List Byte).map fun ft =>
    failsWith (step (filterState 1 1 4 0 [ft, 1, 2, 3, 4] [])) .unsupportedFilterType .filter) =
      [true, true, true, true, true, true, true] := by decide

/-! ### Host commands -/

/-- R139: after START from reset STATUS reads 0x0000_0101. -/
theorem test_start : after (step (hostState (.regWrite 4 0 1) State.reset)) (fun t => t.statusWord == 0x101) = true := by decide

/-- R139: START is ignored while BUSY = 1; IRQ_EN is written. -/
theorem test_start_busy : after (step (hostState (.regWrite 4 0 5) (streamState .trailer []))) (fun t =>
    t.st == .trailer && t.irqEn && t.sizes == ⟨4, 5, 4⟩) = true := by decide

/-- R141: everything reads 0 after a soft reset, whatever else the write says. -/
theorem test_soft_reset : after (step (hostState (.regWrite 4 0 7) { streamState .done [] with irqEn := true })) (fun t =>
    t.statusWord == 0 && t.ctrlWord == 0 && t.cfg == State.reset.cfg && t.mem == (streamState .done []).mem) = true := by decide

/-- R142, R151: IRQ_EN gates the line; DONE stays visible. -/
theorem test_set_irq_en : after (exec (.setIrqEn 1 0) (streamState .done [])) (fun t => t.irq && t.ctrlWord == 4) = true := by
  decide

/-- R17, R144: DONE in state 11 with the interrupt. -/
theorem test_read_status : after (step (hostState (.regRead 4 0x04) { streamState .done [] with irqEn := true })) (fun t =>
    t.busRdata == 0x10B02 && t.st == .done) = true := by decide

/-- R145, R20: IHDR_FMT1 keeps bits 8:0. -/
theorem test_write_fmt1 : after (exec (.writeIhdrFmt1 0xFFFFFFFF) State.reset) (fun t => t.cfg.ihdrFmt1 == 0x1FF) = true := by
  decide

/-- R15, R145: each register at its own offset. -/
theorem test_write_registers : (([0x08, 0x0C, 0x10, 0x18, 0x1C, 0x20, 0x24] : List (BitVec 8)).map fun o =>
    after (step (hostState (.regWrite 4 o 0xA5) State.reset)) fun t =>
      (([0x08, 0x0C, 0x10, 0x18, 0x1C, 0x20, 0x24] : List (BitVec 8)).map fun p => (hostReadRegister p t).busRdata.toNat)
        == ([0x08, 0x0C, 0x10, 0x18, 0x1C, 0x20, 0x24] : List (BitVec 8)).map fun p => if p = o then 0xA5 else 0) =
      [true, true, true, true, true, true, true] := by decide

/-- R25: ignored while BUSY = 1. -/
theorem test_write_while_busy : after (exec (.writeIhdrWidth 9) (streamState .trailer [])) (fun t =>
    t.cfg.ihdrWidth == 1) = true := by decide

/-- R46: a byte access and an unaligned one are refused. -/
theorem test_bad_register_access : (match step (hostState (.regRead 1 0x04) State.reset),
      step (hostState (.regWrite 4 0x06 0) State.reset) with
    | .refused .badRegisterAccess, .refused .badRegisterAccess => true
    | _, _ => false) = true := by decide

/-- R140: width 1, height 1, colour type 6, a bound of 5: BPP 4, STRIDE 4, WORK_SIZE 5, OUT_SIZE 4. -/
theorem test_config_check : after (configCheckWith 5 { streamState .configCheck [1] with sizes := ⟨0, 0, 0⟩ }).finish (fun t =>
    t.st == .zlibHeader && t.sizes == ⟨4, 5, 4⟩ && t.lat.stride == 4 && t.cur == ⟨0, 0x100, 1, 0⟩) = true := by decide

/-- R140: bit depth 16 is rejected with ERR_STATE = CONFIG_CHECK. -/
theorem test_config_check_depth : failsWith (configCheckWith 5 { streamState .configCheck [1] with
    sizes := ⟨0, 0, 0⟩
    cfg := ⟨1, 1, 0x610, 0x100, 0, 1, 0x1000, 0x2000⟩ }).finish .unsupportedImageFormat .configCheck = true := by decide

/-- R42 duty 2: an output buffer on the work buffer is refused. -/
theorem test_config_check_overlap : (match (configCheckWith 5 { streamState .configCheck [1] with
    cfg := ⟨1, 1, 0x608, 0x100, 0, 1, 0x1000, 0x1004⟩ }).finish with
    | .refused .regionsOverlap => true
    | _ => false) = true := by decide

/-- R42 duty 3: after DONE the work buffer is still the engine's until STATUS has been read with BUSY = 0. -/
theorem test_duty3_until_status :
    ((match step (hostState (.memRead 0x1004) (streamState .done [])) with
      | .refused r => r == .hostTouchesRegion
      | _ => false)
    && after (step (hostState (.regRead 4 0x04) (streamState .done []))) (fun t => t.loan == none)
    && after (step (hostState (.memRead 0x1004) { streamState .done [] with loan := none })) (fun t =>
      t.busRdata == 0)) = true := by decide

/-- R42 duty 3: a START accepted in DONE before STATUS was read lends the old regions on; a STATUS read with BUSY = 0 ends it. -/
theorem test_duty3_second_start :
    after (step (hostState (.regWrite 4 0x00 1) { streamState .done [0x78] with
        cfg := ⟨1, 1, 0x608, 0x100, 0x40, 1, 0x3000, 0x4000⟩ })) (fun t =>
      !mayRead t ⟨0x1004, 1⟩ && !mayWrite t ⟨0x100, 1⟩ && !mayWrite t ⟨0x7, 1⟩ && mayRead t ⟨0x1005, 1⟩
        && !mayRead t ⟨0x3004, 1⟩
        && !mayRead (hostReadStatus t) ⟨0x1004, 1⟩ && mayRead (hostReadStatus { t with st := .done }) ⟨0x1004, 1⟩) = true := by
  decide

/-- R154, R156: SOFT_RESET in DONE touches no byte and opens the regions (log 33). -/
theorem test_soft_reset_in_done :
    after (step (hostState (.regWrite 4 0x00 2) (workState .done [] [7]))) (fun t =>
      t.mem == (workState .done [] [7]).mem && mayRead t ⟨0x1000, 1⟩) = true := by decide

/-- R42 duty 3: while the engine has the regions the host may read its input and not write it. -/
theorem test_duty3_input :
    (after (step (hostState (.memRead 0x100) (streamState .done [0x78]))) (fun t => t.busRdata == 0x78)
    && (match step (hostState (.memWrite 0x100 1) (streamState .done [0x78])) with
      | .refused r => r == .hostTouchesRegion
      | _ => false)) = true := by decide

/-! ### Container parser -/

/-- A walk at offset 8 with a chunk there, its length already read. -/
def chunkState (len : Word) (payload : List Byte) : State :=
  { State.reset with
    mem := putAll 0x410 payload ⟨[]⟩
    job := { HostJob.initial with phase := .walking, inputBase := 0x400, inputLen := 100, pos := 8, chunkLen := len } }

/-- R85: a 1 × 2 RGB header. -/
theorem test_chunk_ihdr : after (exec .chunkIhdr (chunkState 13 [0, 0, 0, 1, 0, 0, 0, 2, 8, 2, 0, 0, 0])) (fun t =>
    t.job.ihdr == some ⟨1, 2, 8, 2, 0, 0, 0⟩ && t.job.pos == 33) = true := by decide

/-- R85: 16-bit depth fails at this chunk. -/
theorem test_chunk_ihdr_depth : after (exec .chunkIhdr (chunkState 13 [0, 0, 0, 1, 0, 0, 0, 2, 16, 2, 0, 0, 0])) (fun t =>
    t.job.result == .failure .unsupportedImageFormat && t.job.phase == .returned) = true := by decide

/-- R86: the payload address is input_base + pos + 8. -/
theorem test_chunk_idat : after (exec .chunkIdat (chunkState 5 [])) (fun t =>
    t.job.segs == [⟨0x410, 5⟩] && t.job.pos == 25) = true := by decide

/-- R87: skipped. -/
theorem test_chunk_other : after (exec (.chunkOther 0x49454E44) (chunkState 0 [])) (fun t =>
    t.job.pos == 20 && t.job.segs == []) = true := by decide

/-- A walk at its end: a 1 × 1 RGBA header, the IDAT payload at 0x410, table at 0x800, work at 0x1000, output at 0x2000. -/
def walkedState : State :=
  { State.reset with
    job := { HostJob.initial with
      phase := .walking
      ihdr := some ⟨1, 1, 8, 6, 0, 0, 0⟩
      segs := [⟨0x410, 5⟩]
      place := ⟨0x800, 0x1000, 0x2000, true⟩ } }

/-- R89, R90: 5 and 4 bytes are allocated; the table is 10 04 00 00 05 00 00 00; then the registers, CTRL = 5 and the wait. -/
theorem test_launch : after (endWalkWith 5 walkedState) (fun t =>
    t.job.work == some ⟨0x1000, 5⟩ && t.job.out == some ⟨0x2000, 4⟩
      && t.hostQueue.map (·.action) ==
        [.memWrite 0x800 0x10, .memWrite 0x801 0x04, .memWrite 0x802 0, .memWrite 0x803 0, .memWrite 0x804 5,
          .memWrite 0x805 0, .memWrite 0x806 0, .memWrite 0x807 0, .regWrite 4 0x08 1, .regWrite 4 0x0C 1,
          .regWrite 4 0x10 0x608, .regWrite 4 0x14 0x100, .regWrite 4 0x18 0x800, .regWrite 4 0x1C 1,
          .regWrite 4 0x20 0x1000, .regWrite 4 0x24 0x2000, .regWrite 4 0x00 5, .takeResult]) = true := by decide

/-- R90: on ERROR both buffers are freed, on DONE the work buffer only. -/
theorem test_result_frees :
    ([EngineState.error, .done].map fun st =>
      after (step (hostState .takeResult { walkedState with
        st := st
        errCode := .truncatedInput
        job := { walkedState.job with phase := .launched, work := some ⟨0x1000, 5⟩, out := some ⟨0x2000, 4⟩ } })) fun t =>
      t.job.work == none && t.job.out == (if st = .done then some ⟨0x2000, 4⟩ else none)) = [true, true] := by decide

/-- R83: eight zero bytes are no signature. -/
theorem test_bad_signature : after (step (hostState (.openImage 0x400 8 ⟨0, 0, 0, false⟩) State.reset)) (fun t =>
    t.job.result == .failure .badSignature) = true := by decide
/-! ### States that meet the hypotheses of the statements for the provers -/

/-- Both buffers, the table and the sizes of `streamState` are those of a running decode. -/
theorem inv_workState (st : EngineState) (bytes work : List Byte) (hm : (workState st bytes work).mem.wf)
    (hst : st = .trailer ∨ st = .sizeCheck ∨ st = .filter) (hl : work.length ≤ 5) (hf : st = .filter → work.length = 5) :
    Inv (workState st bytes work) := by
  have hc : (BitVec.ofNat 32 work.length).toNat = work.length := by simp; omega
  refine
    { memory := hm
      reservedZero := (by decide : (0x100#32).toNat < 512)
      noErrorKept := fun _ => ⟨rfl, rfl⟩
      errorKept := ?_
      codePhase := fun h => by cases h
      matchPhase := fun h => by cases h
      idleCursor := ?_
      countsZero := ?_
      sizesZero := ?_
      latched := fun _ => ⟨rfl, rfl, rfl, rfl, rfl, rfl⟩
      sized := fun _ => ⟨.inr rfl, rfl, (by decide : 0 < (1#32).toNat), (by decide : 0 < (1#32).toNat), rfl, rfl, rfl⟩
      placed := fun _ =>
        ⟨(by decide : (0#32).toNat + 8 * (1#32).toNat ≤ memBytes),
          (by decide : (0x1000#32).toNat + (5#32).toNat ≤ memBytes),
          (by decide : (0x2000#32).toNat + (4#32).toNat ≤ memBytes)⟩
      room := fun _ => (by rw [hc]; exact hl : (BitVec.ofNat 32 work.length).toNat ≤ (5#32).toNat)
      full := ?_
      cursor := fun _ h => absurd rfl h
      aligned := fun _ => rfl
      lengthArray := List.length_replicate
      lengthCounts := fun h => by cases h
      codeTable := fun h => by cases h
      bodyTables := ?_
      matchLength := fun h => by cases h
      lent := fun _ => Option.some_ne_none _
      rowInside := fun _ => (by decide : (0#32).toNat < (1#32).toNat) }
  · intro h; rcases hst with rfl | rfl | rfl <;> cases h
  · intro h; rcases hst with rfl | rfl | rfl <;> cases h
  · intro h; rcases hst with rfl | rfl | rfl <;> rcases h with h | h <;> cases h
  · intro h; rcases hst with rfl | rfl | rfl <;> rcases h with h | h <;> cases h
  · intro h
    show BitVec.ofNat 32 work.length = 5#32
    rcases hst with rfl | rfl | rfl
    · rcases h with h | h <;> cases h
    · rcases h with h | h <;> cases h
    · rw [hf rfl]
  · intro h; rcases hst with rfl | rfl | rfl <;> cases h

/-- A decode in TRAILER with its four bytes left. -/
theorem inv_trailer : Inv (workState .trailer [0, 0x19, 0, 0x0B] [0, 1, 2, 3, 4]) :=
  inv_workState _ _ _ (by decide) (.inl rfl) (by decide) (by decide)

/-- A decode in SIZE_CHECK that is one byte short. -/
theorem inv_short : Inv (workState .sizeCheck [] [0, 1, 2, 3]) :=
  inv_workState _ _ _ (by decide) (.inr (.inl rfl)) (by decide) (by decide)

/-- A decode in FILTER at its only row. -/
theorem inv_filter : Inv (workState .filter [] [1, 1, 2, 3, 4]) :=
  inv_workState _ _ _ (by decide) (.inr (.inr rfl)) (by decide) (by decide)

/-- A machine in DONE. -/
theorem inv_done : Inv { workState .filter [] [1, 1, 2, 3, 4] with st := .done } :=
  { inv_filter with
    noErrorKept := fun _ => ⟨rfl, rfl⟩
    errorKept := fun h => by cases h
    codePhase := fun h => by cases h
    matchPhase := fun h => by cases h
    idleCursor := fun h => by cases h
    countsZero := fun h => by rcases h with h | h <;> cases h
    sizesZero := fun h => by rcases h with h | h <;> cases h
    latched := fun h => by cases h
    sized := fun _ => inv_filter.sized (.inl rfl)
    placed := fun h => by cases h
    room := fun h => by cases h
    full := fun _ => rfl
    cursor := fun h => by cases h
    aligned := fun h => by cases h
    bodyTables := fun h => by cases h
    lent := fun h => by cases h
    rowInside := fun h => by cases h }

/-- A host action at the head of the queue is the next to act. -/
theorem hostMoves_hostState (a : HostAction) (s : State) (hp : s.phase = .boundary) (hb : s.busy = false) :
    hostMoves (hostState a s) a := by
  refine ⟨hp, ⟨0, a⟩, [], rfl, rfl, ?_⟩
  show (s.busy && _) = false
  rw [hb]; rfl

/-- The same in any state, for an action that does not wait for BUSY = 0. -/
theorem hostMoves_regWrite (o : BitVec 8) (v : Word) (s : State) (hp : s.phase = .boundary) :
    hostMoves (hostState (.regWrite 4 o v) s) (.regWrite 4 o v) :=
  ⟨hp, ⟨0, _⟩, [], rfl, rfl, Bool.and_false _⟩

/-- The first byte of the window has offset 0, wherever the window lies. -/
theorem windowOffset_base : windowOffset Config.regBase = some 0x00#8 := by
  unfold windowOffset
  rw [if_pos ⟨le_refl _, by omega⟩, Nat.sub_self]

theorem witness_DecodeOfEncode :
    WellFormed (.chunkOther 0xFFFFFFFF) = true ∧ WellFormed (.softReset 1 1 0x1FFFFFFF) = true := by decide

theorem witness_EncodeOfDecode :
    decode .regWrite 0xFFFFFFFF24#40 = .ok (.writeOutBase 0xFFFFFFFF) ∧ decode .pngChunkType 0#40 = .ok (.chunkOther 0) := by
  decide

theorem witness_DecodeTotal : (∃ i, decode .clSymbol 18#40 = .ok i) ∧ ¬ ((19#40).toNat < 19)
    ∧ (∃ i, decode .litlenSymbol 287#40 = .ok i) ∧ ¬ ((288#40).toNat < 288) :=
  ⟨⟨_, rfl⟩, by decide, ⟨_, rfl⟩, by decide⟩

/-! StepRunsFetchedElement, format by format. -/

theorem witness_step_zlibCmf : ∃ s b t i, engineMoves s ∧ s.st = .zlibHeader ∧ readByte (tickHost s) = .ok b t
    ∧ decode .zlibCmf (BitVec.ofNat 40 b.toNat) = .ok i :=
  ⟨streamState .zlibHeader [0x78, 0x01], _, _, _, ⟨rfl, trivial⟩, rfl, rfl, rfl⟩

theorem witness_step_blockHeader : ∃ s v t i, engineMoves s ∧ s.st = .blockHeader ∧ readBlockHeader (tickHost s) = .ok v t
    ∧ decode .blockHeader (BitVec.ofNat 40 v) = .ok i :=
  ⟨streamState .blockHeader [0x07], _, _, _, ⟨rfl, trivial⟩, rfl, rfl, rfl⟩

/-- A state in which the next symbol of a table with one code is fetched. -/
def symbolState (f : Format) (v : Nat) : State := placeElement f v State.reset

theorem witness_step_clSymbol : ∃ s v t i, s.phase = .clSymbols ∧ s.dyn.nl.toNat ≠ s.dyn.hlit.toNat + s.dyn.hdist.toNat
    ∧ huffDecode s.clt s = .ok v t ∧ decode .clSymbol (BitVec.ofNat 40 v) = .ok i :=
  ⟨symbolState .clSymbol 18, _, _, _, rfl, by decide, rfl, rfl⟩

theorem witness_step_litlenSymbol : ∃ s v t i, engineMoves s ∧ s.st = .blockBody
    ∧ huffDecode s.ll (tickHost s) = .ok v t ∧ decode .litlenSymbol (BitVec.ofNat 40 v) = .ok i :=
  ⟨symbolState .litlenSymbol 65, _, _, _, ⟨rfl, trivial⟩, rfl, rfl, rfl⟩

theorem witness_step_distSymbol : ∃ s v t i, s.phase = .distSymbol
    ∧ huffDecode s.dt s = .ok v t ∧ decode .distSymbol (BitVec.ofNat 40 v) = .ok i :=
  ⟨symbolState .distSymbol 29, _, _, _, rfl, rfl, rfl⟩

theorem witness_step_filterType : ∃ s i, engineMoves s ∧ s.st = .filter ∧ filterTypeAddress s < memBytes
    ∧ decode .filterType (BitVec.ofNat 40 (s.mem.read (filterTypeAddress s)).toNat) = .ok i :=
  ⟨filterState 1 1 4 0 [4, 1, 2, 3, 4] [], _, ⟨rfl, trivial⟩, rfl, by decide, rfl⟩

theorem witness_step_ctrlWrite : ∃ s v i, hostWrites s 0x00#8 v ∧ decode .ctrlWrite (v.setWidth 40) = .ok i :=
  ⟨hostState (.regWrite 4 0 0xFFFFFFFD) State.reset, _, _, .inl (hostMoves_regWrite _ _ _ rfl), rfl⟩

/-- By bus address, wherever the window lies. -/
theorem witness_step_ctrlWrite_bus : ∃ s, hostWrites s 0x00#8 5 :=
  ⟨hostState (.busWrite 4 Config.regBase 5) State.reset,
    .inr ⟨_, windowOffset_base, hostMoves_hostState _ _ rfl rfl⟩⟩

theorem witness_step_regWrite : ∃ s offset v i, hostWrites s offset v
    ∧ offset ∈ [0x08#8, 0x0C#8, 0x10#8, 0x14#8, 0x18#8, 0x1C#8, 0x20#8, 0x24#8]
    ∧ decode .regWrite (v ++ offset) = .ok i :=
  ⟨hostState (.regWrite 4 0x24 7) State.reset, 0x24, 7, _, .inl (hostMoves_regWrite _ _ _ rfl), by decide, rfl⟩

theorem witness_step_regRead : ∃ s i, hostReads s 0x04#8 ∧ decode .regRead 0x04#40 = .ok i :=
  ⟨hostState (.regRead 4 0x04) State.reset, _, .inl (hostMoves_hostState _ _ rfl rfl), rfl⟩

theorem witness_step_pngChunkType : ∃ s i, ∃ len tag : Word, hostMoves s .walkChunk ∧ s.job.phase = .walking
    ∧ s.mem.readBe32 (s.job.inputBase.toNat + s.job.pos) = len
    ∧ s.mem.readBe32 (s.job.inputBase.toNat + s.job.pos + 4) = tag
    ∧ s.job.pos + 12 + len.toNat ≤ s.job.inputLen ∧ s.job.inputBase.toNat + s.job.inputLen ≤ memBytes
    ∧ mayRead s ⟨s.job.inputBase.toNat + s.job.pos, 8⟩ = true
    ∧ decode .pngChunkType (BitVec.ofNat 40 tag.toNat) = .ok i :=
  ⟨symbolState .pngChunkType 0x49484452, _, 0, 0x49484452, ⟨rfl, _, _, rfl, rfl, rfl⟩, rfl, by decide, by decide,
    by decide, by decide, by decide, rfl⟩

theorem witness_FailedFetchEntersError :
    (∃ s t, engineMoves s ∧ s.st = .zlibHeader ∧ readByte (tickHost s) = .raise .truncatedInput t)
    ∧ (∃ s t, engineMoves s ∧ s.st = .blockHeader ∧ readBlockHeader (tickHost s) = .raise .truncatedInput t)
    ∧ (∃ s t, s.phase = .clSymbols ∧ s.dyn.nl.toNat ≠ s.dyn.hlit.toNat + s.dyn.hdist.toNat
        ∧ huffDecode s.clt s = .raise .corruptHuffmanStream t)
    ∧ (∃ s t, engineMoves s ∧ s.st = .blockBody ∧ huffDecode s.ll (tickHost s) = .raise .corruptHuffmanStream t)
    ∧ ∃ s t, s.phase = .distSymbol ∧ huffDecode s.dt s = .raise .corruptHuffmanStream t :=
  ⟨⟨streamState .zlibHeader [], _, ⟨rfl, trivial⟩, rfl, rfl⟩, ⟨streamState .blockHeader [], _, ⟨rfl, trivial⟩, rfl, rfl⟩,
    ⟨{ symbolState .clSymbol 0 with clt := .empty _ }, _, rfl, by decide, rfl⟩,
    ⟨streamState .blockBody [0], _, ⟨rfl, trivial⟩, rfl, rfl⟩, ⟨{ streamState .blockBody [0] with phase := .distSymbol }, _, rfl, rfl⟩⟩

/-! The whole machine. -/

theorem witness_StepKeepsInv : ∃ s t, Inv s ∧ step s = .next t := ⟨_, _, inv_trailer, rfl⟩

theorem witness_EngineNeverStops : ∃ s, Inv s ∧ s.decoding = true ∧ (s.phase = .boundary → engineMoves s) :=
  ⟨_, inv_short, rfl, fun _ => ⟨rfl, trivial⟩⟩

theorem witness_OnlyListedTransitions : ∃ s t, Inv s ∧ step s = .next t ∧ t.st ≠ s.st :=
  ⟨_, _, inv_filter, rfl, by decide⟩

theorem witness_EngineWritesOnlyItsBuffers : ∃ s t, Inv s ∧ (s.phase = .boundary → engineMoves s) ∧ step s = .next t
    ∧ ¬ inWork s 0x1005 ∧ ¬ inOut s 0x1005 :=
  ⟨_, _, inv_filter, fun _ => ⟨rfl, trivial⟩, rfl, fun h => absurd h.2 (by decide), fun h => absurd h.1 (by decide)⟩

theorem witness_ConfigHeldWhileBusy : ∃ s t, Inv s ∧ s.busy = true ∧ step s = .next t ∧ s.decoding = true :=
  ⟨_, _, inv_trailer, rfl, rfl, rfl⟩

theorem witness_ErrorEntryRecorded : ∃ s t, Inv s ∧ step s = .next t ∧ s.st ≠ .error ∧ t.st = .error
    ∧ ¬ inWork s 0x1005 ∧ ¬ inOut s 0x1005 :=
  ⟨_, _, inv_short, rfl, by decide, rfl, fun h => absurd h.2 (by decide), fun h => absurd h.1 (by decide)⟩

/-! Bit reader. -/

theorem witness_FlatView :
    (∃ s, tableReadable s ∧ cursorInStream s ∧ s.cur.bit = 0 ∧ streamPosition s < 8 * (wholeStream s).length)
    ∧ (∃ s, tableReadable s ∧ cursorInStream s ∧ s.cur.bit = 7 ∧ streamPosition s < 8 * (wholeStream s).length)
    ∧ ∃ s, tableReadable s ∧ cursorInStream s ∧ s.cur.bit = 0 ∧ streamPosition s = 8 * (wholeStream s).length :=
  ⟨⟨streamState .blockHeader [0x63], by unfold tableReadable; decide,
      by unfold cursorInStream Cursor.sound; decide, rfl, by decide⟩,
    ⟨{ streamState .blockHeader [0x63] with cur := ⟨0, 0x100, 1, 7⟩ }, by unfold tableReadable; decide,
      by unfold cursorInStream Cursor.sound; decide, rfl, by decide⟩,
    ⟨{ streamState .blockHeader [0x63] with cur := ⟨0, 0x101, 0, 0⟩ }, by unfold tableReadable; decide,
      by unfold cursorInStream Cursor.sound; decide, rfl, by decide⟩⟩

theorem witness_EnsureByteLoop :
    (∃ s : State, s.cur.rem ≠ 0) ∧ (∃ s : State, s.cur.rem = 0 ∧ s.lat.nseg.toNat ≤ s.cur.seg.toNat + 1)
    ∧ ∃ s : State, s.cur.rem = 0 ∧ s.cur.seg.toNat + 1 < s.lat.nseg.toNat ∧ tableReadable s :=
  ⟨⟨streamState .trailer [1], by decide⟩, ⟨streamState .trailer [], by decide⟩,
    ⟨{ State.reset with lat := { State.reset.lat with nseg := 2 } }, rfl, by decide, by unfold tableReadable; decide⟩⟩

theorem witness_FetchBitAtCursor :
    (∃ s t, ensureByte s = .ok () t ∧ t.cur.bit ≠ 7) ∧ (∃ s t, ensureByte s = .ok () t ∧ t.cur.bit = 7)
    ∧ ∃ s t, ensureByte s = .raise .truncatedInput t :=
  ⟨⟨streamState .trailer [1], _, rfl, by decide⟩,
    ⟨{ streamState .trailer [1] with cur := ⟨0, 0x100, 1, 7⟩ }, _, rfl, by decide⟩, ⟨streamState .trailer [], _, rfl⟩⟩

theorem witness_ReadBitsValue :
    (∃ s, tableReadable s ∧ 8 ≤ (restBits s).length) ∧ ∃ s, tableReadable s ∧ (restBits s).length < 1 :=
  ⟨⟨streamState .trailer [0x80], by unfold tableReadable; decide, by decide⟩,
    ⟨streamState .trailer [], by unfold tableReadable; decide, by decide⟩⟩

theorem witness_AlignToByte : (∃ s : State, s.cur.bit = 0) ∧ ∃ s : State, s.cur.bit ≠ 0 :=
  ⟨⟨State.reset, rfl⟩, ⟨{ State.reset with cur := ⟨0, 0, 1, 7⟩ }, by decide⟩⟩

theorem witness_ReadByteIsReadBits8 : (∃ s t, s.cur.bit = 0 ∧ ensureByte s = .ok () t)
    ∧ ∃ s t, s.cur.bit = 0 ∧ ensureByte s = .raise .truncatedInput t :=
  ⟨⟨streamState .trailer [0xFF], _, rfl, rfl⟩, ⟨streamState .trailer [], _, rfl, rfl⟩⟩

/-! Huffman tables. -/

/-- The longest length of each shape, an absent symbol and the longest again. -/
theorem witness_BuildSortsSymbols : ∀ k ∈ [llShape, dtShape, cltShape], [k.longest, 0, 1, k.longest].length ≤ k.cap
    ∧ ∀ l ∈ [k.longest, 0, 1, k.longest], l ≤ k.longest := by decide

/-- A complete code, which fits every shape: the sum is the whole space. -/
theorem witness_CanonicalDecode : (∀ k ∈ [llShape, dtShape, cltShape], [1, 2, 0, 2].length ≤ k.cap
      ∧ (∀ l ∈ [1, 2, 0, 2], l ≤ k.longest) ∧ kraft k.longest [1, 2, 0, 2])
    ∧ tableReadable (streamState .blockBody [0xFF]) :=
  ⟨by unfold kraft; decide, by unfold tableReadable; decide⟩

theorem witness_SingleCode : ((∀ k ∈ [llShape, dtShape, cltShape], [0, 1].length ≤ k.cap) ∧ [0, 1].getD 1 0 = 1 ∧ ∀ u, u ≠ 1 → [0, 1].getD u 0 = 0)
    ∧ (∃ s bits, tableReadable s ∧ restBits s = false :: bits) ∧ ∃ s bits, tableReadable s ∧ restBits s = true :: bits := by
  refine ⟨⟨by decide, rfl, ?_⟩, ⟨streamState .blockBody [0], _, by unfold tableReadable; decide, rfl⟩,
    ⟨streamState .blockBody [1], _, by unfold tableReadable; decide, rfl⟩⟩
  intro u h
  match u, h with
  | 0, _ => rfl
  | 1, h => exact absurd rfl h
  | _ + 2, _ => rfl

/-! zlib header and blocks. -/

theorem witness_ZlibHeaderOperation :
    ∀ bytes ∈ ([[], [0x77], [0x78], [0x78, 0x01]] : List (List Byte)), ∃ s, engineMoves s ∧ s.st = .zlibHeader
      ∧ s.cur.bit = 0 ∧ tableReadable s ∧ restBytes s = bytes := by
  intro bytes h
  refine ⟨streamState .zlibHeader bytes, ⟨rfl, trivial⟩, rfl, rfl, ?_, ?_⟩
  · show (0#32).toNat + 8 * (1#32).toNat ≤ memBytes; decide
  · revert bytes; decide

theorem witness_BlockHeaderOperation :
    (∃ s, engineMoves s ∧ s.st = .blockHeader ∧ tableReadable s ∧ restBits s = [])
    ∧ (∃ s f rest, engineMoves s ∧ s.st = .blockHeader ∧ tableReadable s ∧ restBits s = f :: rest ∧ rest.length < 2)
    ∧ ∀ v ∈ ([0, 2, 4, 6] : List Byte), ∃ s f lo hi rest, engineMoves s ∧ s.st = .blockHeader ∧ tableReadable s
      ∧ restBits s = f :: lo :: hi :: rest ∧ v.getLsbD 1 = lo ∧ v.getLsbD 2 = hi := by
  refine ⟨⟨streamState .blockHeader [], ⟨rfl, trivial⟩, rfl, by unfold tableReadable; decide, by decide⟩,
    ⟨{ streamState .blockHeader [0x40] with cur := ⟨0, 0x100, 1, 6⟩ }, true, [false], ⟨rfl, trivial⟩, rfl,
    by unfold tableReadable; decide, by decide, by decide⟩, ?_⟩
  intro v h
  simp only [List.mem_cons, List.not_mem_nil, or_false] at h
  rcases h with rfl | rfl | rfl | rfl
  · exact ⟨streamState .blockHeader [0], _, _, _, _, ⟨rfl, trivial⟩, rfl, by unfold tableReadable; decide, rfl, rfl, rfl⟩
  · exact ⟨streamState .blockHeader [2], _, _, _, _, ⟨rfl, trivial⟩, rfl, by unfold tableReadable; decide, rfl, rfl, rfl⟩
  · exact ⟨streamState .blockHeader [4], _, _, _, _, ⟨rfl, trivial⟩, rfl, by unfold tableReadable; decide, rfl, rfl, rfl⟩
  · exact ⟨streamState .blockHeader [6], _, _, _, _, ⟨rfl, trivial⟩, rfl, by unfold tableReadable; decide, rfl, rfl, rfl⟩

theorem witness_HeaderElements : (∃ s flg rest, tableReadable s ∧ restBytes s = flg :: rest)
    ∧ ∃ s, tableReadable s ∧ restBytes s = [] :=
  ⟨⟨streamState .zlibHeader [0x01], _, _, by unfold tableReadable; decide, rfl⟩,
    ⟨streamState .zlibHeader [], by unfold tableReadable; decide, by decide⟩⟩

/-- The work buffer of `streamState` holds no byte of its table or stream. -/
theorem streamApart_streamState (st : EngineState) (bytes : List Byte) (h : ∀ a ∈ restAddrs (streamState st bytes), a < 0x1000) :
    streamApart (streamState st bytes) := by
  intro a ha
  have h1 : 0x1000 ≤ a := ha.1
  refine ⟨fun h2 => ?_, fun h2 => ?_⟩
  · have : a < (0#32).toNat + 8 * (1#32).toNat := h2.2
    simp at this; omega
  · have := h a h2; omega

/-- All premises but the lengths: five bytes of LEN 1 fill a work buffer of five from OUT_COUNT 4; too few bytes; too many. -/
theorem witness_StoredBlockOperation : ∀ bytes ∈ ([[1, 0, 0], [5, 0, 0, 0, 1, 2, 3, 4, 5], [6, 0, 0, 0, 1, 2, 3, 4, 5],
      [6, 0, 0, 0, 1, 2, 3, 4, 5, 6]] : List (List Byte)), ∃ s, engineMoves s ∧ s.st = .storedBlock ∧ tableReadable s
      ∧ s.cur.sound ∧ streamApart s ∧ s.outCount.toNat ≤ s.sizes.workSize.toNat
      ∧ s.lat.wbase.toNat + s.sizes.workSize.toNat ≤ memBytes ∧ alignedBytes s = bytes
      ∧ s.outCount.toNat = 0 ∧ s.sizes.workSize.toNat = 5 := by
  intro bytes h
  refine ⟨streamState .storedBlock bytes, ⟨rfl, trivial⟩, rfl, ?_, fun h => absurd rfl h, ?_, ?_, ?_, ?_, rfl, rfl⟩
  · show (0#32).toNat + 8 * (1#32).toNat ≤ memBytes; decide
  · apply streamApart_streamState; revert bytes; decide
  · show (0#32).toNat ≤ (5#32).toNat; decide
  · show (0x1000#32).toNat + (5#32).toNat ≤ memBytes; decide
  · revert bytes; decide

theorem witness_FixedTablesOperation : ∃ s, engineMoves s ∧ s.st = .fixedTables :=
  ⟨streamState .fixedTables [], ⟨rfl, trivial⟩, rfl⟩

/-- HCLEN 19 needs 71 bits; nine bytes hold them, and one byte does not hold the counts. -/
theorem witness_DynamicHeaderOperation :
    (∃ s hclen, engineMoves s ∧ s.st = .dynamicTables ∧ tableReadable s
      ∧ hclen = bitsValue (((restBits s).drop 10).take 4) + 4 ∧ hclen = 19 ∧ 14 + 3 * hclen ≤ (restBits s).length)
    ∧ ∃ s, engineMoves s ∧ s.st = .dynamicTables ∧ tableReadable s ∧ (restBits s).length < 14 :=
  ⟨⟨streamState .dynamicTables [0xFF, 0xFF, 0xFF, 0xFF, 0xFF, 0xFF, 0xFF, 0xFF, 0xFF], 19, ⟨rfl, trivial⟩, rfl,
      by unfold tableReadable; decide, by decide, rfl, by decide⟩,
    ⟨streamState .dynamicTables [0xFF], ⟨rfl, trivial⟩, rfl, by unfold tableReadable; decide, by decide⟩⟩

/-- The premises of the repeat symbols. -/
theorem dynState_ready (bytes : List Byte) (lens : List (BitVec 4)) (h : lens.length ≤ 320) :
    (dynState bytes lens).dyn.lens.length = 320 ∧ (dynState bytes lens).dyn.hlit.toNat + (dynState bytes lens).dyn.hdist.toNat ≤ 320
      ∧ tableReadable (dynState bytes lens) := by
  refine ⟨?_, (by decide : (257#9).toNat + (1#6).toNat ≤ 320), (by decide : (0#32).toNat + 8 * (1#32).toNat ≤ memBytes)⟩
  show (lens ++ List.replicate (320 - lens.length) 0).length = 320
  rw [List.length_append, List.length_replicate]; omega

/-- No previous length; no extra bits; a repeat that fits; one that ends exactly at HLIT + HDIST = 258; one that passes it. -/
theorem witness_RepeatPreviousElement :
    ((dynState [] []).dyn.nl = 0)
    ∧ ((dynState [] [1]).dyn.nl ≠ 0 ∧ (restBits (dynState [] [1])).length < 2)
    ∧ (2 ≤ (restBits (dynState [3] [1])).length ∧ (dynState [3] [1]).dyn.nl ≠ 0
        ∧ (dynState [3] [1]).dyn.nl.toNat + (3 + bitsValue ((restBits (dynState [3] [1])).take 2)) ≤ 257 + 1)
    ∧ ∃ s : State, s.dyn.nl.toNat + (3 + bitsValue ((restBits s).take 2)) = s.dyn.hlit.toNat + s.dyn.hdist.toNat
        ∧ 2 ≤ (restBits s).length ∧ s.dyn.nl ≠ 0 := by
  refine ⟨by decide, by decide, by decide, ?_⟩
  exact ⟨{ dynState [0] [] with dyn := { (dynState [0] []).dyn with nl := 255 } }, by decide, by decide, by decide⟩

theorem witness_RepeatZeroElements :
    ((restBits (dynState [] [])).length < 3)
    ∧ (3 ≤ (restBits (dynState [7] [])).length
        ∧ (dynState [7] []).dyn.nl.toNat + (3 + bitsValue ((restBits (dynState [7] [])).take 3)) ≤ 257 + 1)
    ∧ (7 ≤ (restBits (dynState [0x7F] [])).length
        ∧ (dynState [0x7F] []).dyn.nl.toNat + (11 + bitsValue ((restBits (dynState [0x7F] [])).take 7)) ≤ 257 + 1)
    ∧ ∃ s : State, s.dyn.hlit.toNat + s.dyn.hdist.toNat < s.dyn.nl.toNat + (3 + bitsValue ((restBits s).take 3))
        ∧ 3 ≤ (restBits s).length := by
  refine ⟨by decide, by decide, by decide, ?_⟩
  exact ⟨{ dynState [0] [] with dyn := { (dynState [0] []).dyn with nl := 256 } }, by decide, by decide⟩

theorem witness_DynamicTablesSplit : ∃ s : State, s.phase = .clSymbols
    ∧ s.dyn.nl.toNat = s.dyn.hlit.toNat + s.dyn.hdist.toNat :=
  ⟨{ dynState [0] [] with dyn := { (dynState [0] []).dyn with nl := 258 } }, rfl, by decide⟩

theorem witness_TrailerOperation : ∀ bytes ∈ ([[1, 2, 3], [1, 2, 3, 4]] : List (List Byte)), ∃ s, engineMoves s
    ∧ s.st = .trailer ∧ tableReadable s ∧ s.cur.sound ∧ alignedBytes s = bytes := by
  intro bytes h
  refine ⟨streamState .trailer bytes, ⟨rfl, trivial⟩, rfl, ?_, fun h => absurd rfl h, ?_⟩
  · show (0#32).toNat + 8 * (1#32).toNat ≤ memBytes; decide
  · revert bytes; decide

theorem witness_SizeCheckOperation : (∃ s, engineMoves s ∧ s.st = .sizeCheck ∧ s.outCount ≠ s.sizes.workSize)
    ∧ ∃ s, engineMoves s ∧ s.st = .sizeCheck ∧ s.outCount = s.sizes.workSize :=
  ⟨⟨workState .sizeCheck [] [0, 1, 2, 3], ⟨rfl, trivial⟩, rfl, by decide⟩,
    ⟨workState .sizeCheck [] [0, 1, 2, 3, 4], ⟨rfl, trivial⟩, rfl, by decide⟩⟩

/-! Block body. -/

theorem witness_LiteralElement : (∃ s : State, s.outCount.toNat < s.sizes.workSize.toNat
      ∧ s.lat.wbase.toNat + s.sizes.workSize.toNat ≤ memBytes ∧ s.mem.wf)
    ∧ ∃ s : State, s.outCount = s.sizes.workSize :=
  ⟨⟨workState .blockBody [] [1, 2, 3, 4], by decide, by decide, by decide⟩,
    ⟨workState .blockBody [] [1, 2, 3, 4, 5], by decide⟩⟩

theorem witness_EndOfBlockElement : (∃ s : State, s.bfinal = 1#1) ∧ ∃ s : State, s.bfinal = 0#1 :=
  ⟨⟨{ State.reset with bfinal := 1 }, rfl⟩, ⟨State.reset, rfl⟩⟩

theorem witness_LengthElements : ∃ r ∈ lengthRows, r.extra = 5
    ∧ (∃ s, tableReadable s ∧ (restBits s).length < r.extra) ∧ ∃ s, tableReadable s ∧ r.extra ≤ (restBits s).length :=
  ⟨⟨.len284, 227, 5⟩, by simp [lengthRows], rfl,
    ⟨streamState .blockBody [], by unfold tableReadable; decide, by decide⟩,
    ⟨streamState .blockBody [0x1F], by unfold tableReadable; decide, by decide⟩⟩

/-- A distance equal to OUT_COUNT, a length that ends exactly at WORK_SIZE (R121). -/
theorem witness_DistanceElementsCopy : ∃ r ∈ distanceRows, ∃ (s : State) (dist : Nat), tableReadable s
    ∧ r.extra ≤ (restBits s).length ∧ dist = r.base + bitsValue ((restBits s).take r.extra) ∧ dist = s.outCount.toNat
    ∧ s.outCount.toNat + s.copyLen.toNat = s.sizes.workSize.toNat
    ∧ s.lat.wbase.toNat + s.sizes.workSize.toNat ≤ memBytes :=
  ⟨⟨.dist1, 2, 0⟩, by simp [distanceRows], { workState .blockBody [] [1, 2] with copyLen := 3 }, 2,
    by unfold tableReadable; decide, by decide, by decide, by decide, by decide, by decide⟩

theorem witness_DistanceTooFarRaises : (∃ r ∈ distanceRows, ∃ s, tableReadable s ∧ (restBits s).length < r.extra)
    ∧ ∃ r ∈ distanceRows, ∃ (s : State) (dist : Nat), tableReadable s ∧ r.extra ≤ (restBits s).length
      ∧ dist = r.base + bitsValue ((restBits s).take r.extra) ∧ dist = s.outCount.toNat + 1 :=
  ⟨⟨⟨.dist29, 24577, 13⟩, by simp [distanceRows], streamState .blockBody [0], by unfold tableReadable; decide, by decide⟩,
    ⟨⟨.dist2, 3, 0⟩, by simp [distanceRows], workState .blockBody [] [1, 2], 3, by unfold tableReadable; decide,
      by decide, by decide, by decide⟩⟩

theorem witness_CopyPastWorkSizeRaises : ∃ r ∈ distanceRows, ∃ (s : State) (dist : Nat), tableReadable s
    ∧ r.extra ≤ (restBits s).length ∧ dist = r.base + bitsValue ((restBits s).take r.extra) ∧ dist ≤ s.outCount.toNat
    ∧ s.outCount.toNat ≤ s.sizes.workSize.toNat ∧ s.sizes.workSize.toNat + 1 = s.outCount.toNat + s.copyLen.toNat
    ∧ s.lat.wbase.toNat + s.sizes.workSize.toNat ≤ memBytes :=
  ⟨⟨.dist1, 2, 0⟩, by simp [distanceRows], { workState .blockBody [] [1, 2, 3] with copyLen := 3 }, 2,
    by unfold tableReadable; decide, by decide, by decide, by decide, by decide, by decide, by decide⟩

/-! Filter pass. -/

/-- Row 1 of 2, two pixels of 3 bytes. -/
theorem witness_FilterElements : filterReady (filterState 2 2 3 1 [0, 1, 2, 3, 4, 5, 6, 4, 1, 2, 3, 4, 5, 6] [1, 2, 3, 4, 5, 6]) := by
  refine ⟨rfl, rfl, ⟨.inl rfl, rfl, by decide, by decide, rfl, rfl, rfl⟩,
    ⟨(by decide : (0#32).toNat + 8 * (1#32).toNat ≤ memBytes), by decide, by decide⟩, ?_, by decide⟩
  rintro a ⟨⟨-, h1⟩, ⟨h2, -⟩⟩
  have h3 : a < (0x1000#32).toNat + (14#32).toNat := h1
  have h4 : (0x2000#32).toNat ≤ a := h2
  simp at h3 h4; omega

/-- The three cases of R135, and a tie between a and b. -/
theorem witness_PaethChoice : ∃ dist : Nat → Nat, (∀ x, dist x = ((10 : Int) + 20 - 15 - x).natAbs)
    ∧ ¬ (dist 10 ≤ dist 20 ∧ dist 10 ≤ dist 15) ∧ ¬ dist 20 ≤ dist 15 :=
  ⟨fun x => ((10 : Int) + 20 - 15 - x).natAbs, fun _ => rfl, by decide, by decide⟩

theorem witness_InvalidFilterElements : ∃ s, engineMoves s ∧ s.st = .filter ∧ filterTypeAddress s < memBytes
    ∧ (s.mem.read (filterTypeAddress s)).toNat = 5 :=
  ⟨filterState 1 1 4 0 [5, 1, 2, 3, 4] [], ⟨rfl, trivial⟩, rfl, by decide, by decide⟩

/-! Host commands. -/

theorem witness_StartCommand : State.reset.busy = false ∧ (streamState .trailer []).busy = true := by decide

theorem witness_SoftResetCommand : (streamState .trailer []).busy = true ∧ ¬ inWork (streamState .trailer []) 0x1005
    ∧ ¬ inOut (streamState .trailer []) 0x1005 ∧ (streamState .trailer []).mem.wf :=
  ⟨rfl, fun h => absurd h.2 (by decide), fun h => absurd h.1 (by decide), by decide⟩

theorem witness_CtrlWriteOrder : ∀ v ∈ ([3, 4, 5] : List Word),
    (∃ s, hostWrites s 0x00#8 v ∧ s.busy = false) ∧ ∃ s, hostWrites s 0x00#8 v ∧ s.busy = true := by
  intro v _
  exact ⟨⟨hostState (.regWrite 4 0 v) State.reset, .inl (hostMoves_regWrite _ _ _ rfl), rfl⟩,
    ⟨hostState (.regWrite 4 0 v) (streamState .trailer []), .inl (hostMoves_regWrite _ _ _ rfl), rfl⟩⟩

theorem witness_StatusRead : ∃ s, hostReads s 0x04#8 :=
  ⟨hostState (.regRead 4 0x04) State.reset, .inl (hostMoves_hostState _ _ rfl rfl)⟩

theorem witness_ConfigWriteCommands : (∃ s : State, s.busy = false) ∧ (∃ s : State, s.busy = true)
    ∧ ∀ offset ∈ [0x04#8, 0x28#8, 0x48#8], ∃ s, hostWrites s offset 0xFFFFFFFF :=
  ⟨⟨State.reset, rfl⟩, ⟨streamState .trailer [], rfl⟩,
    fun offset _ => ⟨hostState (.regWrite 4 offset 0xFFFFFFFF) State.reset, .inl (hostMoves_regWrite _ _ _ rfl)⟩⟩

theorem witness_RegistersReadBack : (∀ offset ∈ [0x08#8, 0x14#8, 0x24#8], ∃ s, hostWrites s offset 0xFFFFFFFF ∧ s.busy = false)
    ∧ (∀ offset ∈ [0x28#8, 0x2C#8, 0x30#8, 0xFC#8], ∃ s, hostReads s offset ∧ offset ≠ 0x04#8) ∧ (0xFC#8).toNat % 4 = 0 :=
  ⟨fun offset _ => ⟨hostState (.regWrite 4 offset 0xFFFFFFFF) State.reset, .inl (hostMoves_regWrite _ _ _ rfl), rfl⟩,
    fun offset h => ⟨hostState (.regRead 4 offset) State.reset, .inl (hostMoves_hostState _ _ rfl rfl), by
      revert offset; decide⟩, rfl⟩

theorem witness_ReservedReadsAndWrites : (∀ offset ∈ [0x4C#8, 0xFC#8], 0x4C ≤ offset.toNat ∧ offset.toNat % 4 = 0
      ∧ ∃ s, hostWrites s offset 1) ∧ (State.reset.busy = false ∧ State.reset.isError = false)
    ∧ State.reset.cfg.ihdrFmt1.toNat < 512 ∧ (0xFFFFFE05#32).toNat % 512 = (0x5#32).toNat % 512 := by
  refine ⟨fun offset h => ⟨?_, ?_, ⟨hostState (.regWrite 4 offset 1) State.reset, .inl (hostMoves_regWrite _ _ _ rfl)⟩⟩,
    ⟨rfl, rfl⟩, by decide, by decide⟩ <;> revert offset <;> decide

theorem witness_ProgressReads : (∃ s, Inv s ∧ s.st = .done ∧ s.outCount = 5) ∧ ∃ s, Inv s ∧ s.busy = true :=
  ⟨⟨_, inv_done, rfl, rfl⟩, ⟨_, inv_trailer, rfl⟩⟩

/-! CONFIG_CHECK. -/

theorem witness_ConfigCheckOperation_step : ∃ s, engineMoves s ∧ s.st = .configCheck :=
  ⟨streamState .configCheck [1], ⟨rfl, trivial⟩, rfl⟩

/-- The image of `streamState` passes every check with a bound of exactly 5, and its regions meet the duties. -/
theorem witness_ConfigCheckOperation_passes : ∃ s : State, s.cfg.ihdrFmt1.getLsbD 8 = true ∧ s.cfg.ihdrFmt0.toNat % 256 = 8
    ∧ s.cfg.ihdrFmt0.toNat / 256 % 256 = 6 ∧ s.cfg.ihdrFmt0.toNat / 65536 % 256 = 0
    ∧ s.cfg.ihdrFmt0.toNat / 16777216 = 0 ∧ s.cfg.ihdrFmt1.toNat % 256 = 0 ∧ s.cfg.segCount ≠ 0
    ∧ s.cfg.ihdrHeight.toNat * (1 + s.cfg.ihdrWidth.toNat * 4) = 5 ∧ regionsFit s = true ∧ buffersDisjoint s = true :=
  ⟨streamState .configCheck [1], by decide, by decide, by decide, by decide, by decide, by decide, by decide, by decide,
    by decide, by decide⟩

/-- No IHDR; one wrong field each; no IDAT; a size past the bound; duties broken. -/
theorem witness_ConfigCheckOperation_fails :
    ((0x0FF#32).getLsbD 8 = false) ∧ ((0x607#32).toNat % 256 ≠ 8) ∧ ((0x308#32).toNat / 256 % 256 ≠ 2
      ∧ (0x308#32).toNat / 256 % 256 ≠ 6) ∧ ((0x10608#32).toNat / 65536 % 256 ≠ 0)
    ∧ ((0x1000608#32).toNat / 16777216 ≠ 0) ∧ ((0x101#32).toNat % 256 ≠ 0) ∧ 4 < 1 * (1 + 1 * 4)
    ∧ regionsFit { streamState .configCheck [1] with lat := ⟨1, 1, 4, 4, 0, 1, 0x1000, 0xFFFFFFFD⟩ } = false
    ∧ regionsFit { streamState .configCheck [1] with lat := ⟨1, 1, 4, 4, 0, 1, 0x1000, 0x1004⟩ } = true
    ∧ buffersDisjoint { streamState .configCheck [1] with lat := ⟨1, 1, 4, 4, 0, 1, 0x1000, 0x1004⟩ } = false := by decide

/-- Regions that touch do not overlap; regions that share a byte do. -/
theorem witness_RegionTestsMeanDuties :
    buffersDisjoint { streamState .configCheck [1] with lat := ⟨1, 1, 4, 4, 0, 1, 0x1000, 0x1005⟩ } = true
    ∧ regionsFit { streamState .configCheck [1] with lat := ⟨1, 1, 4, 4, 0, 1, 0x1000, 0xFFFFFFFC⟩ } = true := by decide

/-- The byte before the work buffer and its first and last byte; a byte of the table and of the segment. -/
theorem witness_RegionTestsMeanDuties_host :
    (∀ a ∈ [0xFFF#32, 0x1000, 0x1004, 0], ∃ s, hostMoves s (.memRead a) ∧ s.st ≠ .configCheck ∧ s.loan = some .empty)
    ∧ (¬ inWork (streamState .done [1]) 0xFFF ∧ inWork (streamState .done [1]) 0x1000
      ∧ inWork (streamState .done [1]) 0x1004 ∧ ¬ inWork (streamState .done [1]) 0x1005)
    ∧ (∀ a ∈ [0x108#32, 0x7, 0x100], ∃ s, hostMoves s (.memWrite a 1) ∧ s.st ≠ .configCheck ∧ s.loan = some .empty)
    ∧ inTable (streamState .done [1]) 7 ∧ inSegments (streamState .done [1]) 0x100 :=
  ⟨fun a _ => ⟨hostState (.memRead a) (streamState .done [1]), hostMoves_hostState _ _ rfl rfl, nofun, rfl⟩,
    by unfold inWork; decide,
    fun a _ => ⟨hostState (.memWrite a 1) (streamState .done [1]), hostMoves_hostState _ _ rfl rfl, nofun, rfl⟩,
    by unfold inTable; decide, 0, by decide, by decide, by decide⟩

/-- A ledger that holds an earlier decode's buffer at 0x3000 and segment at 0x180: their first and last byte and the next one. -/
theorem witness_RegionTestsMeanDuties_earlier :
    (∃ s, hostMoves s (.memRead 0x3004) ∧ s.st ≠ .configCheck ∧ s.loan = some ⟨[⟨0x3000, 5⟩], [⟨0x180, 4⟩]⟩)
    ∧ (∃ s, hostMoves s (.memWrite 0x183 1) ∧ s.st ≠ .configCheck ∧ s.loan = some ⟨[⟨0x3000, 5⟩], [⟨0x180, 4⟩]⟩)
    ∧ Region.holds ⟨0x3000, 5⟩ 0x3000 = true ∧ Region.holds ⟨0x3000, 5⟩ 0x3004 = true
    ∧ Region.holds ⟨0x3000, 5⟩ 0x3005 = false ∧ Region.holds ⟨0x180, 4⟩ 0x183 = true
    ∧ (∃ s : State, s.busy = false ∧ mayRead s ⟨0x1000, 1⟩ = false ∧ mayWrite s ⟨0x100, 1⟩ = false) :=
  ⟨⟨hostState (.memRead 0x3004) { streamState .done [1] with loan := some ⟨[⟨0x3000, 5⟩], [⟨0x180, 4⟩]⟩ },
      hostMoves_hostState _ _ rfl rfl, nofun, rfl⟩,
    ⟨hostState (.memWrite 0x183 1) { streamState .done [1] with loan := some ⟨[⟨0x3000, 5⟩], [⟨0x180, 4⟩]⟩ },
      hostMoves_hostState _ _ rfl rfl, nofun, rfl⟩,
    by decide, by decide, by decide, by decide, streamState .done [1], by decide, by decide, by decide⟩

/-! Container parser. -/

theorem witness_ChunkElements : (∃ s : State, s.job.ihdr ≠ none) ∧ (∃ s : State, s.job.ihdr = none ∧ s.job.chunkLen ≠ 13)
    ∧ (∃ s : State, s.job.ihdr = none ∧ s.job.chunkLen = 13
      ∧ mayRead s ⟨s.job.inputBase.toNat + s.job.pos + 8, 13⟩ = false)
    ∧ ∃ (s : State) (pay : Nat), pay = s.job.inputBase.toNat + s.job.pos + 8 ∧ s.job.ihdr = none ∧ s.job.chunkLen = 13
      ∧ pay + 13 ≤ memBytes ∧ mayRead s ⟨pay, 13⟩ = true ∧ s.mem.read (pay + 8) = 8 ∧ s.mem.read (pay + 9) = 6 ∧ s.mem.readBe32 pay = 1
      ∧ s.mem.readBe32 (pay + 4) = 2 ∧ s.mem.read (pay + 10) = 0 ∧ s.mem.read (pay + 11) = 0 ∧ s.mem.read (pay + 12) = 0 :=
  ⟨⟨{ State.reset with job := { HostJob.initial with ihdr := some ⟨1, 1, 8, 6, 0, 0, 0⟩ } }, by decide⟩,
    ⟨chunkState 12 [], by decide, by decide⟩,
    ⟨{ chunkState 13 [] with
        loan := some .empty
        lat := ⟨1, 1, 4, 4, 0, 1, 0x41C, 0x2000⟩
        sizes := ⟨4, 5, 4⟩ }, by decide, by decide, by decide⟩,
    ⟨chunkState 13 [0, 0, 0, 1, 0, 0, 0, 2, 8, 6, 0, 0, 0], 0x410, by decide, by decide, by decide, by decide, by decide,
      by decide, by decide, by decide, by decide, by decide, by decide, by decide⟩⟩

/-- A signature that matches, and one of seven bytes. -/
theorem witness_SignatureCheck :
    (∃ s, hostMoves s (.openImage 0x400 8 ⟨0, 0, 0, false⟩) ∧ mayRead s ⟨(0x400#32).toNat, 8⟩ = true ∧ ∀ k, k < 8 → s.mem.read ((0x400#32).toNat + k) =
      ([0x89, 0x50, 0x4E, 0x47, 0x0D, 0x0A, 0x1A, 0x0A] : List Byte).getD k 0)
    ∧ (∃ s, hostMoves s (.openImage 0x400 8 ⟨0, 0, 0, false⟩) ∧ mayRead s ⟨(0x400#32).toNat, 8⟩ = true
      ∧ ∃ k, k < 8 ∧ s.mem.read ((0x400#32).toNat + k) ≠
        ([0x89, 0x50, 0x4E, 0x47, 0x0D, 0x0A, 0x1A, 0x0A] : List Byte).getD k 0)
    ∧ (∃ s, hostMoves s (.openImage 0xFF9 8 ⟨0, 0, 0, false⟩) ∧ mayRead s ⟨(0xFF9#32).toNat, 8⟩ = false)
    ∧ ∃ s, hostMoves s (.openImage 0x400 7 ⟨0, 0, 0, false⟩) :=
  ⟨⟨hostState (.openImage 0x400 8 ⟨0, 0, 0, false⟩)
      { State.reset with mem := putAll 0x400 [0x89, 0x50, 0x4E, 0x47, 0x0D, 0x0A, 0x1A, 0x0A] ⟨[]⟩ },
      hostMoves_hostState _ _ rfl rfl, by decide, by decide⟩,
    ⟨hostState (.openImage 0x400 8 ⟨0, 0, 0, false⟩) State.reset, hostMoves_hostState _ _ rfl rfl, by decide, 0, by decide, by decide⟩,
    ⟨hostState (.openImage 0xFF9 8 ⟨0, 0, 0, false⟩) (streamState .done []), hostMoves_hostState _ _ rfl rfl, by decide⟩,
    ⟨hostState (.openImage 0x400 7 ⟨0, 0, 0, false⟩) State.reset, hostMoves_hostState _ _ rfl rfl⟩⟩

/-- Eleven bytes left; a chunk header in a buffer of the engine; a length one byte too long for what is left. -/
theorem witness_WalkBounds :
    (∃ s, hostMoves s .walkChunk ∧ s.job.phase = .walking ∧ s.job.inputBase.toNat + s.job.inputLen ≤ memBytes
      ∧ s.job.pos < s.job.inputLen ∧ s.job.inputLen < s.job.pos + 12)
    ∧ (∃ s, hostMoves s .walkChunk ∧ s.job.phase = .walking ∧ s.job.inputBase.toNat + s.job.inputLen ≤ memBytes
      ∧ s.job.pos + 12 ≤ s.job.inputLen ∧ mayRead s ⟨s.job.inputBase.toNat + s.job.pos, 8⟩ = false)
    ∧ ∃ s, hostMoves s .walkChunk ∧ s.job.phase = .walking ∧ s.job.inputBase.toNat + s.job.inputLen ≤ memBytes
      ∧ s.job.pos + 12 ≤ s.job.inputLen ∧ mayRead s ⟨s.job.inputBase.toNat + s.job.pos, 8⟩ = true
      ∧ s.job.inputLen < s.job.pos + 12 + (s.mem.readBe32 (s.job.inputBase.toNat + s.job.pos)).toNat := by
  refine ⟨⟨hostState .walkChunk { chunkState 0 [] with job := { (chunkState 0 []).job with inputLen := 19 } },
    hostMoves_hostState _ _ rfl rfl, rfl, by decide, by decide, by decide⟩,
    ⟨hostState .walkChunk { streamState .done [] with job := { (chunkState 0 []).job with inputBase := 0xFF8 } },
    hostMoves_hostState _ _ rfl rfl, rfl, by decide, by decide, by decide⟩,
    ⟨hostState .walkChunk
      { chunkState 0 [] with
        mem := putAll 0x408 [0, 0, 0, 1] ⟨[]⟩
        job := { (chunkState 0 []).job with inputLen := 20 } },
    hostMoves_hostState _ _ rfl rfl, rfl, by decide, by decide, by decide, by decide⟩⟩

theorem witness_EndOfWalk_step : ∃ s, hostMoves s .walkChunk ∧ s.job.phase = .walking ∧ s.job.inputLen ≤ s.job.pos :=
  ⟨hostState .walkChunk { chunkState 0 [] with job := { (chunkState 0 []).job with inputLen := 8 } },
    hostMoves_hostState _ _ rfl rfl, rfl, by decide⟩

/-- Nothing recorded; the 1 × 1 RGBA image of `walkedState`, with a bound of 4 and of 5; placed past the end of memory; placed with
the work region over the last byte of the IDAT payload, and just after it. -/
theorem witness_EndOfWalk :
    (∃ s : State, s.job.ihdr = none)
    ∧ (∃ hd : Ihdr, walkedState.job.ihdr = some hd ∧ walkedState.job.segs ≠ []
      ∧ hd.height.toNat * (1 + hd.width.toNat * (if hd.colorType = 2 then 3 else 4)) = 5
      ∧ hd.height.toNat * (hd.width.toNat * (if hd.colorType = 2 then 3 else 4)) = 4)
    ∧ ¬ 0xFFFFFFFC + 5 ≤ memBytes ∧ 0x1000 + 5 ≤ memBytes
    ∧ ¬ allocationApart ⟨0x414, 5⟩ ⟨0x2000, 4⟩ ⟨0x800, 8⟩ [⟨0x410, 5⟩]
    ∧ allocationApart ⟨0x415, 5⟩ ⟨0x2000, 4⟩ ⟨0x800, 8⟩ [⟨0x410, 5⟩] := by
  refine ⟨⟨State.reset, rfl⟩, ⟨_, rfl, by decide, by decide, by decide⟩, by decide, by decide, ?_, ?_⟩
  · intro h
    exact (h.2 0x414 (.inl (by decide))).2 _ (List.mem_singleton_self _) (by decide)
  · unfold allocationApart Region.holds
    simp only [List.mem_singleton, forall_eq, Bool.and_eq_true, decide_eq_true_eq, Bool.and_eq_false_iff, decide_eq_false_iff_not]
    refine ⟨fun a => by omega, fun a h => ⟨by omega, ?_⟩⟩
    show ¬ (0x410 ≤ a ∧ a < 0x410 + 5)
    omega

theorem witness_TakeResult : (∃ s, hostMoves s .takeResult ∧ s.job.phase = .launched ∧ s.st = .done)
    ∧ ∃ s, hostMoves s .takeResult ∧ s.job.phase = .launched ∧ s.st = .error :=
  ⟨⟨hostState .takeResult { State.reset with st := .done, job := { HostJob.initial with phase := .launched } },
      hostMoves_hostState _ _ rfl rfl, rfl, rfl⟩,
    ⟨hostState .takeResult { State.reset with st := .error, job := { HostJob.initial with phase := .launched } },
      hostMoves_hostState _ _ rfl rfl, rfl, rfl⟩⟩

end Sys2Proof.Machine.Test
end

section
/-! PROOFS. The decoder by formats: a decoded instruction is a row of its format, and what the rows of a format have in common. -/

namespace Sys2Proof.Machine

/-! ### Decoding answers a row of its format -/

theorem decodeZlibCmf_format {w : BitVec 40} {i : Instr} (h : decodeZlibCmf w = .ok i) : formatOf i = .zlibCmf := by
  unfold decodeZlibCmf at h
  dsimp only at h
  split_ifs at h <;> cases h <;> rfl

theorem decodeBlockHeader_format {w : BitVec 40} {i : Instr} (h : decodeBlockHeader w = .ok i) :
    formatOf i = .blockHeader := by
  unfold decodeBlockHeader at h
  dsimp only at h
  split_ifs at h <;> cases h <;> rfl

theorem decodeClSymbol_format {w : BitVec 40} {i : Instr} (h : decodeClSymbol w = .ok i) : formatOf i = .clSymbol := by
  unfold decodeClSymbol at h
  split at h
  · cases h; rfl
  · split at h <;> cases h <;> rfl

theorem decodeLitlenSymbol_format {w : BitVec 40} {i : Instr} (h : decodeLitlenSymbol w = .ok i) :
    formatOf i = .litlenSymbol := by
  unfold decodeLitlenSymbol at h
  split at h
  · cases h; rfl
  · split at h <;> cases h <;> rfl

theorem decodeDistSymbol_format {w : BitVec 40} {i : Instr} (h : decodeDistSymbol w = .ok i) :
    formatOf i = .distSymbol := by
  unfold decodeDistSymbol at h
  split at h <;> cases h <;> rfl

theorem decodeFilterType_format {w : BitVec 40} {i : Instr} (h : decodeFilterType w = .ok i) :
    formatOf i = .filterType := by
  unfold decodeFilterType at h
  split_ifs at h
  case neg => split at h <;> cases h <;> rfl
  all_goals cases h; rfl

theorem decodeCtrlWrite_format {w : BitVec 40} {i : Instr} (h : decodeCtrlWrite w = .ok i) : formatOf i = .ctrlWrite := by
  unfold decodeCtrlWrite at h
  dsimp only at h
  split_ifs at h <;> cases h <;> rfl

theorem decodeRegRead_format {w : BitVec 40} {i : Instr} (h : decodeRegRead w = .ok i) : formatOf i = .regRead := by
  unfold decodeRegRead at h
  split_ifs at h
  cases h
  rfl

theorem decodeRegWrite_format {w : BitVec 40} {i : Instr} (h : decodeRegWrite w = .ok i) : formatOf i = .regWrite := by
  unfold decodeRegWrite at h
  dsimp only at h
  split_ifs at h <;> cases h <;> rfl

theorem decodePngChunkType_format {w : BitVec 40} {i : Instr} (h : decodePngChunkType w = .ok i) :
    formatOf i = .pngChunkType := by
  unfold decodePngChunkType at h
  dsimp only at h
  split_ifs at h <;> cases h <;> rfl

/-- A decoded instruction is a row of the format it was decoded in (R71). -/
theorem decode_format {f : Format} {w : BitVec 40} {i : Instr} (h : decode f w = .ok i) : formatOf i = f := by
  unfold decode at h
  split at h
  · cases h
  cases f with
  | zlibCmf => exact decodeZlibCmf_format h
  | blockHeader => exact decodeBlockHeader_format h
  | clSymbol => exact decodeClSymbol_format h
  | litlenSymbol => exact decodeLitlenSymbol_format h
  | distSymbol => exact decodeDistSymbol_format h
  | filterType => exact decodeFilterType_format h
  | ctrlWrite => exact decodeCtrlWrite_format h
  | regRead => exact decodeRegRead_format h
  | regWrite => exact decodeRegWrite_format h
  | pngChunkType => exact decodePngChunkType_format h

/-! ### The meanings of a format's rows -/

/-- The rows of R67 as meanings. -/
theorem exec_lengthRow {r : MatchRow} (hr : r ∈ lengthRows) (s : State) :
    exec r.instr s = lengthSymbol r.base r.extra s := by
  unfold lengthRows at hr
  fin_cases hr <;> rfl

/-- The rows of R68 as meanings. -/
theorem exec_distanceRow {r : MatchRow} (hr : r ∈ distanceRows) (s : State) :
    exec r.instr s = distanceSymbol r.base r.extra s := by
  unfold distanceRows at hr
  fin_cases hr <;> rfl

/-- The lengths of R67 are 3 to 258. -/
theorem lengthRow_range : ∀ r ∈ lengthRows, 3 ≤ r.base ∧ r.base + 2 ^ r.extra ≤ 259 := by decide

/-- The distances of R68 are 1 to 32768. -/
theorem distanceRow_range : ∀ r ∈ distanceRows, 1 ≤ r.base ∧ r.base + 2 ^ r.extra ≤ 32769 := by decide

/-- A zlib header byte passes the method check or fails it (R100). -/
theorem exec_zlibCmf {i : Instr} (hf : formatOf i = .zlibCmf) :
    (∃ cinfo, i = .zhdr cinfo) ∨ ∀ s, exec i s = badCompressionMethod s := by
  match i, hf with
  | .zhdr cinfo, _ => exact .inl ⟨cinfo, rfl⟩
  | .zhdrBadCm0To7 .., _ => exact .inr fun _ => rfl
  | .zhdrBadCm9 .., _ => exact .inr fun _ => rfl
  | .zhdrBadCm10To11 .., _ => exact .inr fun _ => rfl
  | .zhdrBadCm12To15 .., _ => exact .inr fun _ => rfl

/-- A literal/length symbol is a literal, the end of the block, a length of R67 or invalid (R118, R119, R124). -/
theorem litlenSymbol_cases {i : Instr} (hf : formatOf i = .litlenSymbol) :
    (∃ byte, i = .lit byte) ∨ i = .eob ∨ (∃ r ∈ lengthRows, i = r.instr) ∨ ∃ low, i = .llInvalid286To287 low := by
  cases i <;> simp [formatOf, lengthRows] at hf ⊢

/-- A distance symbol is a distance of R68 or invalid (R125). -/
theorem distSymbol_cases {i : Instr} (hf : formatOf i = .distSymbol) :
    (∃ r ∈ distanceRows, i = r.instr) ∨ ∃ low, i = .distInvalid30To31 low := by
  cases i <;> simp [formatOf, distanceRows] at hf ⊢

/-- A filter type reconstructs its row with a predictor or fails (R130, R136). -/
theorem exec_filterType {i : Instr} (hf : formatOf i = .filterType) :
    (∃ ft pred, ∀ s, exec i s = filterRow ft pred s) ∨ ∃ ft, ∀ s, exec i s = filterInvalid ft s := by
  match i, hf with
  | .ftNone, _ => exact .inl ⟨_, _, fun _ => rfl⟩
  | .ftSub, _ => exact .inl ⟨_, _, fun _ => rfl⟩
  | .ftUp, _ => exact .inl ⟨_, _, fun _ => rfl⟩
  | .ftAverage, _ => exact .inl ⟨_, _, fun _ => rfl⟩
  | .ftPaeth, _ => exact .inl ⟨_, _, fun _ => rfl⟩
  | .ftInvalid5, _ => exact .inr ⟨_, fun _ => rfl⟩
  | .ftInvalid6To7 _, _ => exact .inr ⟨_, fun _ => rfl⟩
  | .ftInvalid08To0F _, _ => exact .inr ⟨_, fun _ => rfl⟩
  | .ftInvalid10To1F _, _ => exact .inr ⟨_, fun _ => rfl⟩
  | .ftInvalid20To3F _, _ => exact .inr ⟨_, fun _ => rfl⟩
  | .ftInvalid40To7F _, _ => exact .inr ⟨_, fun _ => rfl⟩
  | .ftInvalid80ToFF _, _ => exact .inr ⟨_, fun _ => rfl⟩

/-- IHDR_FMT1 keeps bits 8:0 of what is written (R20). -/
theorem fmt1_toNat (v : Word) : (v &&& 0x1FF#32).toNat = v.toNat % 512 := by
  rw [BitVec.toNat_and]
  exact Nat.and_two_pow_sub_one_eq_mod v.toNat 9

theorem fmt1_lt (v : Word) : (v &&& 0x1FF#32).toNat < 512 := by
  rw [fmt1_toNat]
  exact Nat.mod_lt _ (by decide)

/-- A register-write row writes the configuration registers, and IHDR_FMT1 keeps its 9 bits (R20, R145). -/
theorem exec_regWrite {i : Instr} (hf : formatOf i = .regWrite) (s : State) :
    ∃ c : ConfigRegs, exec i s = .next (writeConfig c s)
      ∧ (s.cfg.ihdrFmt1.toNat < 512 → c.ihdrFmt1.toNat < 512) := by
  match i, hf with
  | .writeIhdrWidth _, _ => exact ⟨_, rfl, id⟩
  | .writeIhdrHeight _, _ => exact ⟨_, rfl, id⟩
  | .writeIhdrFmt0 _, _ => exact ⟨_, rfl, id⟩
  | .writeIhdrFmt1 data, _ => exact ⟨_, rfl, fun _ => fmt1_lt data⟩
  | .writeSegtabBase _, _ => exact ⟨_, rfl, id⟩
  | .writeSegCount _, _ => exact ⟨_, rfl, id⟩
  | .writeWorkBase _, _ => exact ⟨_, rfl, id⟩
  | .writeOutBase _, _ => exact ⟨_, rfl, id⟩

/-- The one register-read row is READ_STATUS (R144). -/
theorem exec_regRead {i : Instr} (hf : formatOf i = .regRead) (s : State) : exec i s = .next (hostReadStatus s) := by
  match i, hf with
  | .readStatus, _ => rfl

theorem extractLsb'_one_eq (v : Word) (k : Nat) : v.extractLsb' k 1 = 1#1 ↔ v.getLsbD k = true := by
  rw [BitVec.eq_of_getLsbD_eq_iff]
  simp [BitVec.getLsbD_extractLsb']

/-- A field of a 32-bit word in its 40-bit selector. -/
theorem extractLsb'_setWidth {k n : Nat} (v : Word) (h : k + n ≤ 32) :
    (v.setWidth 40).extractLsb' k n = v.extractLsb' k n := by
  ext i hi
  simp
  omega

/-- A CTRL write is a soft reset, a start or neither, by its bits 1 and 0 (R16, R138). -/
theorem decode_ctrlWrite (v : Word) : decode .ctrlWrite (v.setWidth 40) = .ok
    (if v.getLsbD 1 then .softReset (v.extractLsb' 0 1) (v.extractLsb' 2 1) (v.extractLsb' 3 29)
      else if v.getLsbD 0 then .start (v.extractLsb' 2 1) (v.extractLsb' 3 29)
      else .setIrqEn (v.extractLsb' 2 1) (v.extractLsb' 3 29)) := by
  have hw : ¬ 2 ^ Format.ctrlWrite.width ≤ (v.setWidth 40).toNat := by
    rw [BitVec.toNat_setWidth_of_le (by decide)]
    exact not_le.2 v.isLt
  have hfield := fun k n h => extractLsb'_setWidth (k := k) (n := n) v h
  unfold decode decodeCtrlWrite
  simp only [if_neg hw, hfield 0 1 (by decide), hfield 1 1 (by decide), hfield 2 1 (by decide),
    hfield 3 29 (by decide), extractLsb'_one_eq]
  split_ifs <;> rfl

end Sys2Proof.Machine
end

section
/-! PROOFS. Whose step it is: `step` through its turn, the engine's and the host's, and everything a host move can do. -/

namespace Sys2Proof.Machine

/-! ### Turns -/

/-- What a step answers for its turn. -/
def Turn.outcome : Turn → Host.Outcome State Fault Refusal
  | .silent o => o
  | .element f w s =>
    match decode f w with
    | .ok i => exec i s
    | .error _ => .refused .noSuchElement

theorem step_eq (s : State) : step s = (turn s).outcome := by
  unfold step
  cases turn s <;> rfl

theorem Turn.outcome_element {f : Format} {w : BitVec 40} {i : Instr} (s : State) (h : decode f w = .ok i) :
    (Turn.element f w s).outcome = exec i s := by
  simp only [Turn.outcome, h]

/-- An element's step that answers a next state is the meaning of a row of its format. -/
theorem Turn.element_next {f : Format} {w : BitVec 40} {s t : State} (h : (Turn.element f w s).outcome = .next t) :
    ∃ i, decode f w = .ok i ∧ formatOf i = f ∧ exec i s = .next t := by
  cases hd : decode f w with
  | ok i => exact ⟨i, rfl, decode_format hd, by rwa [Turn.outcome_element s hd] at h⟩
  | error e =>
    simp only [Turn.outcome, hd] at h
    cases h

/-- A fetched element is executed in the state after the fetch, or the fetch raised and the step enters ERROR. -/
theorem Run.All.element_next {stops : Prop} {P : Nat → State → Prop} {R : ErrorCode → State → Prop} {x : Run Nat}
    {f : Format} {t : State} (hx : x.All stops P R) (h : (x.element f).outcome = .next t) :
    (∃ v u i, P v u ∧ formatOf i = f ∧ exec i u = .next t) ∨ ∃ e u, R e u ∧ t = enterError e u := by
  cases x with
  | ok v u =>
    obtain ⟨i, -, hf, hi⟩ := Turn.element_next h
    exact .inl ⟨v, u, i, hx, hf, hi⟩
  | raise e u => cases h; exact .inr ⟨e, u, hx, rfl⟩
  | fault r => cases h
  | refuse r => cases h

/-- Inside an operation the engine goes on; at its boundary the engine or the host moves (R12, R14). -/
theorem turn_cases (s : State) :
    s.phase = .clSymbols ∨ s.phase = .distSymbol ∨ engineMoves s ∨ ∃ a, hostMoves s a := by
  match hp : s.phase with
  | .clSymbols => exact .inl rfl
  | .distSymbol => exact .inr (.inl rfl)
  | .boundary =>
    unfold engineMoves hostMoves
    match hq : s.hostQueue with
    | [] => exact .inr (.inr (.inl ⟨hp, trivial⟩))
    | e :: rest =>
      cases hw : hostWaits e s with
      | true => exact .inr (.inr (.inl ⟨hp, hw⟩))
      | false => exact .inr (.inr (.inr ⟨e.action, hp, e, rest, rfl, rfl, hw⟩))

theorem turn_engine {s : State} (h : engineMoves s) : turn s = engineTurn (tickHost s) := by
  obtain ⟨hp, hw⟩ := h
  unfold turn tickHost
  rw [hp]
  match hq : s.hostQueue with
  | [] => rfl
  | e :: rest =>
    rw [hq] at hw
    simp only [hw, if_true]

theorem turn_host {s : State} {a : HostAction} (h : hostMoves s a) : turn s = hostTurn a s := by
  obtain ⟨hp, e, rest, hq, rfl, hw⟩ := h
  unfold turn
  simp [hp, hq, hw]

theorem turn_clSymbols {s : State} (h : s.phase = .clSymbols) :
    turn s = if lengthsComplete s then .silent (runDynFinish s) else (huffDecode s.clt s).element .clSymbol := by
  unfold turn
  rw [h]

theorem turn_distSymbol {s : State} (h : s.phase = .distSymbol) :
    turn s = (huffDecode s.dt s).element .distSymbol := by
  unfold turn
  rw [h]

/-- Counting down the queue's delay changes the queue only. -/
theorem tickHost_eq (s : State) : tickHost s = { s with hostQueue := (tickHost s).hostQueue } := by
  unfold tickHost
  split <;> rfl

/-- A 32-bit host write, by offset or by bus address (R15, R46). -/
theorem step_hostWrites {s : State} {offset : BitVec 8} {v : Word} (h : hostWrites s offset v) :
    step s = (regWriteTurn 4 offset v (popHost s)).outcome := by
  rw [step_eq]
  rcases h with h | ⟨addr, ha, h⟩
  · rw [turn_host h]; rfl
  · rw [turn_host h]; simp [hostTurn, ha]

/-- A 32-bit host read, by offset or by bus address (R15, R46). -/
theorem step_hostReads {s : State} {offset : BitVec 8} (h : hostReads s offset) :
    step s = (regReadTurn 4 offset (popHost s)).outcome := by
  rw [step_eq]
  rcases h with h | ⟨addr, ha, h⟩
  · rw [turn_host h]; rfl
  · rw [turn_host h]; simp [hostTurn, ha]

theorem wordAccess_iff (width : Nat) (offset : BitVec 8) :
    wordAccess width offset = true ↔ width = 4 ∧ offset.toNat % 4 = 0 := by
  unfold wordAccess
  simp only [Bool.and_eq_true, beq_iff_eq]
  refine and_congr_right fun _ => ?_
  rw [← BitVec.toNat_inj, BitVec.extractLsb'_toNat]
  simp

/-! ### Everything a host move can do -/

/-- The two states differ as a host move that is no START and no reset lets them (R14, R25, R42): in the host's own fields, in
IRQ_EN and memory, and with BUSY = 0 in the configuration registers and the ledger. -/
structure HostMove (s t : State) : Prop where
  frame : t = { s with
    irqEn := t.irqEn
    cfg := t.cfg
    mem := t.mem
    draws := t.draws
    busRdata := t.busRdata
    hostQueue := t.hostQueue
    loan := t.loan
    job := t.job }
  memory : s.mem.wf → t.mem.wf
  fmt1 : s.cfg.ihdrFmt1.toNat < 512 → t.cfg.ihdrFmt1.toNat < 512
  held : s.busy = true → t.cfg = s.cfg ∧ t.loan = s.loan

/-- A move that touches neither memory nor the registers that BUSY guards. -/
theorem HostMove.own {s t : State} (h : t = { s with
    irqEn := t.irqEn
    draws := t.draws
    busRdata := t.busRdata
    hostQueue := t.hostQueue
    job := t.job }) : HostMove s t := by
  rw [h]
  exact ⟨rfl, id, id, fun _ => ⟨rfl, rfl⟩⟩

theorem HostMove.popHost (s : State) : HostMove s (popHost s) := .own rfl

theorem HostMove.busy {s t : State} (h : HostMove s t) : t.busy = s.busy := by rw [h.frame]; rfl

theorem HostMove.trans {s t u : State} (h : HostMove s t) (h' : HostMove t u) : HostMove s u := by
  refine ⟨by rw [h'.frame, h.frame], fun w => h'.memory (h.memory w), fun w => h'.fmt1 (h.fmt1 w), fun hb => ?_⟩
  obtain ⟨hc, hl⟩ := h.held hb
  obtain ⟨hc', hl'⟩ := h'.held (by rw [h.busy]; exact hb)
  exact ⟨hc'.trans hc, hl'.trans hl⟩

theorem HostMove.jobFail (e : ErrorCode) (s : State) : HostMove s (jobFail e s) := .own rfl

theorem HostMove.advanceChunk (s : State) : HostMove s (advanceChunk s) := .own rfl

theorem HostMove.writeConfig {c : ConfigRegs} {s : State}
    (hc : s.cfg.ihdrFmt1.toNat < 512 → c.ihdrFmt1.toNat < 512) : HostMove s (writeConfig c s) := by
  cases hb : s.busy with
  | true => rw [writeConfig_busy hb]; exact .own rfl
  | false => rw [writeConfig_ready hb]; exact ⟨rfl, id, hc, fun h => by rw [hb] at h; cases h⟩

theorem HostMove.hostReadStatus (s : State) : HostMove s (hostReadStatus s) :=
  ⟨rfl, id, id, fun hb => ⟨rfl, by unfold Machine.hostReadStatus; simp [hb]⟩⟩

theorem HostMove.hostReadRegister (offset : BitVec 8) (s : State) : HostMove s (hostReadRegister offset s) := by
  by_cases h : offset = 0x04#8
  · subst h; exact .hostReadStatus s
  · obtain ⟨d, n, hr⟩ := hostReadRegister_frame s h
    exact .own (by rw [hr])

theorem HostMove.takeResult (s : State) : HostMove s (takeResult s) := by
  unfold Machine.takeResult
  split
  · exact .own rfl
  · exact (HostMove.hostReadStatus s).trans (.own rfl)

/-- A host read of the window (R46). -/
theorem HostMove.of_regRead {width : Nat} {offset : BitVec 8} {s t : State}
    (h : (regReadTurn width offset s).outcome = .next t) : HostMove s t := by
  unfold regReadTurn at h
  split_ifs at h
  · cases h
  · obtain ⟨i, -, hf, hi⟩ := Turn.element_next h
    rw [exec_regRead hf] at hi
    cases hi
    exact .hostReadStatus s
  · cases h
    exact .hostReadRegister offset s

/-- A host write of a byte (R51). -/
theorem HostMove.of_memWrite {addr : Word} {byte : Byte} {s t : State} (h : hostMemWrite addr byte s = .next t) :
    HostMove s t := by
  unfold hostMemWrite at h
  split at h
  · cases h
    exact ⟨rfl, fun w => Memory.write_wf _ w addr.isLt, id, fun _ => ⟨rfl, rfl⟩⟩
  · cases h

theorem HostMove.of_memRead {addr : Word} {s t : State} (h : hostMemRead addr s = .next t) : HostMove s t := by
  unfold hostMemRead at h
  split at h
  · cases h
    exact .own rfl
  · cases h

theorem HostMove.of_openFile {contents : List Byte} {base : Word} {place : Placement} {s t : State}
    (h : openFile contents base place s = .next t) : HostMove s t := by
  unfold openFile at h
  split at h
  · cases h
  · cases h
    exact .own rfl

theorem HostMove.of_openImage {base : Word} {len : Nat} {place : Placement} {s t : State}
    (h : openImage base len place s = .next t) : HostMove s t := by
  unfold openImage at h
  dsimp only at h
  split_ifs at h
  · cases h
    exact .own rfl
  all_goals
    unfold hostReading at h
    split at h
    · cases h
      exact .own rfl
    · cases h

/-- The end of the walk (R88 to R90). -/
theorem HostMove.of_endWalk {maxWork : Nat} {s t : State} (h : endWalkWith maxWork s = .next t) : HostMove s t := by
  unfold endWalkWith at h
  split at h
  · cases h; exact .jobFail _ s
  dsimp only at h
  split_ifs at h
  · cases h; exact .jobFail _ s
  · cases h; exact .jobFail _ s
  · cases h; exact .own rfl

/-- The IHDR fields are read without a change or a raise. -/
theorem readIhdr_all (a : Nat) (s : State) :
    (readIhdr a s).All True (fun _ t => t = s) (fun _ _ => False) := by
  have word (a : Nat) : (memReadBe32 a s).All True (fun _ t => t = s) (fun _ _ => False) :=
    (memReadBe32_all a s).imp (fun _ => trivial) (fun _ _ h => h.1) fun _ _ h => h
  have byte (a : Nat) : (memRead a s).All True (fun _ t => t = s) (fun _ _ => False) :=
    (memRead_all a s).imp (fun _ => trivial) (fun _ _ h => h.1) fun _ _ h => h
  refine (word _).bind ?_; rintro _ _ rfl
  refine (word _).bind ?_; rintro _ _ rfl
  refine (byte _).bind ?_; rintro _ _ rfl
  refine (byte _).bind ?_; rintro _ _ rfl
  refine (byte _).bind ?_; rintro _ _ rfl
  refine (byte _).bind ?_; rintro _ _ rfl
  refine (byte _).bind ?_; rintro _ _ rfl
  exact rfl

/-- The first IHDR is recorded, skipped or a failure of the call (R85). -/
theorem HostMove.of_chunkIhdr {s t : State} (h : execChunkIhdr s = .next t) : HostMove s t := by
  unfold execChunkIhdr at h
  split_ifs at h
  · cases h; exact .advanceChunk s
  · cases h; exact .jobFail _ s
  have hx := (hostReading_all (a := payloadAddress s) (n := 13) (s := s) (readIhdr_all (payloadAddress s) s)).bind
    (Q := fun _ u => HostMove s u)
    (k := fun h s => Run.ok () (if h.supported then Machine.advanceChunk { s with job := { s.job with ihdr := some h } }
      else Machine.jobFail .unsupportedImageFormat s)) ?_
  · rcases hx.finish h with hm | ⟨e, u, hu, -⟩
    · exact hm
    · exact hu.elim
  · rintro hd u rfl
    show HostMove u (if hd.supported then _ else _)
    split
    · exact .own rfl
    · exact .jobFail _ u

/-- A chunk type's meaning (R85 to R87). -/
theorem HostMove.of_chunk {i : Instr} {s t : State} (hf : formatOf i = .pngChunkType) (h : exec i s = .next t) :
    HostMove s t := by
  match i, hf, h with
  | .chunkIhdr, _, h => exact .of_chunkIhdr h
  | .chunkIdat, _, h => cases h; exact .own rfl
  | .chunkOther _, _, h => cases h; exact .advanceChunk s

/-- The next chunk of the walk (R84). -/
theorem HostMove.of_walk {s t : State} (h : (walkTurn s).outcome = .next t) : HostMove s t := by
  unfold walkTurn at h
  split_ifs at h
  · cases h; exact .popHost s
  · exact (HostMove.popHost s).trans (.of_endWalk h)
  · cases h; exact .jobFail _ s
  have hlen := hostReading_all (a := s.job.inputBase.toNat + s.job.pos) (n := 8) (s := s)
    (memReadBe32_all (s.job.inputBase.toNat + s.job.pos) s)
  split at h
  next len u hr =>
    rw [hr] at hlen
    obtain ⟨rfl, -⟩ := hlen
    split_ifs at h
    · cases h; exact .jobFail _ u
    have htag := ((memReadBe32_all (u.job.inputBase.toNat + u.job.pos + 4) u)).bind
      (Q := fun _ v => HostMove u v)
      (k := fun tag s => Run.ok tag.toNat { s with job := { s.job with chunkLen := len } }) ?_
    · rcases htag.element_next h with ⟨v, w, i, hm, hf, hi⟩ | ⟨e, w, hw, -⟩
      · exact hm.trans (.of_chunk hf hi)
      · exact hw.elim
    · rintro tag v ⟨rfl, -⟩
      exact .own rfl
  next e u hr => rw [hr] at hlen; exact hlen.elim
  next => cases h
  next => cases h

/-- A host move by its effect on the block: an ordinary move, an accepted START, or a SOFT_RESET (R138). -/
inductive HostEffect (s : State) : State → Prop
  | move {t : State} (h : HostMove s t) : HostEffect s t
  | start {u : State} (h : HostMove s u) (hb : s.busy = false) : HostEffect s (acceptStart u)
  | reset {v : Word} (hw : hostWrites s 0x00#8 v) (hv : v.getLsbD 1 = true) : HostEffect s (resetBlock (popHost s))

/-- A host write of the window (R46): the write that resets is a 32-bit write of CTRL with bit 1 set. -/
theorem HostEffect.of_regWrite {width : Nat} {offset : BitVec 8} {v : Word} {s t : State}
    (hw : width = 4 → hostWrites s offset v)
    (h : (regWriteTurn width offset v (popHost s)).outcome = .next t) : HostEffect s t := by
  have hpop := HostMove.popHost s
  unfold regWriteTurn at h
  split_ifs at h with ha hctrl
  · cases h
  · subst hctrl
    rw [Turn.outcome_element _ (decode_ctrlWrite v)] at h
    split_ifs at h with hv hv0
    · cases h
      exact .reset (hw ((wordAccess_iff _ _).1 (by simpa using ha)).1) hv
    · cases h
      show HostEffect s (if s.busy then _ else _)
      cases hb : s.busy with
      | true => exact .move (.own rfl)
      | false => exact .start (.own rfl) hb
    · cases h
      exact .move (.own rfl)
  · obtain ⟨i, -, hf, hi⟩ := Turn.element_next h
    obtain ⟨c, hc, h9⟩ := exec_regWrite hf (popHost s)
    rw [hc] at hi
    cases hi
    exact .move (hpop.trans (.writeConfig h9))
  · cases h
    exact .move hpop

/-- Everything the host's turn can do. -/
theorem hostMoves_effect {a : HostAction} {s t : State} (hm : hostMoves s a) (h : step s = .next t) :
    HostEffect s t := by
  rw [step_eq, turn_host hm] at h
  have hpop := HostMove.popHost s
  cases a with
  | regRead width offset => exact .move (hpop.trans (.of_regRead h))
  | regWrite width offset v => exact .of_regWrite (fun hw => .inl (hw ▸ hm)) h
  | busRead width addr =>
    cases ho : windowOffset addr with
    | some offset =>
      simp only [hostTurn, ho] at h
      exact .move (hpop.trans (.of_regRead h))
    | none =>
      simp only [hostTurn, ho] at h
      cases h
  | busWrite width addr v =>
    cases ho : windowOffset addr with
    | some offset =>
      simp only [hostTurn, ho] at h
      exact .of_regWrite (fun hw => .inr ⟨addr, ho, hw ▸ hm⟩) h
    | none =>
      simp only [hostTurn, ho] at h
      cases h
  | memRead addr => exact .move (hpop.trans (.of_memRead h))
  | memWrite addr byte => exact .move (hpop.trans (.of_memWrite h))
  | openFile contents base place => exact .move (hpop.trans (.of_openFile h))
  | openImage base len place => exact .move (hpop.trans (.of_openImage h))
  | walkChunk => exact .move (.of_walk h)
  | takeResult =>
    cases h
    exact .move (hpop.trans (.takeResult _))

end Sys2Proof.Machine
end

section
/-! PROOFS. The engine's operations keep the invariant: what each keeps of the state, then one lemma per operation. -/

namespace Sys2Proof.Machine

/-! ### What an operation past CONFIG_CHECK keeps -/

/-- The errors the block raises: BadSignature is the container parser's (R146). -/
def ErrorCode.raised (e : ErrorCode) : Prop := e ≠ .noError ∧ e ≠ .badSignature

/-- What every operation past CONFIG_CHECK keeps, to its end or to its error entry: registers, latches, sizes, the length of LENS
and memory's canonical form. -/
structure Keeps (s t : State) : Prop where
  cfg : t.cfg = s.cfg
  lat : t.lat = s.lat
  sizes : t.sizes = s.sizes
  lens : t.dyn.lens.length = s.dyn.lens.length
  memory : s.mem.wf → t.mem.wf

theorem Keeps.refl (s : State) : Keeps s s := ⟨rfl, rfl, rfl, rfl, id⟩

theorem Keeps.trans {s t u : State} (h : Keeps s t) (h' : Keeps t u) : Keeps s u :=
  ⟨h'.cfg.trans h.cfg, h'.lat.trans h.lat, h'.sizes.trans h.sizes, h'.lens.trans h.lens, fun w => h'.memory (h.memory w)⟩

theorem cloudBuffers_wf {s : State} (h : s.mem.wf) : s.cloudBuffers.wf :=
  Memory.fillFree_wf (Memory.fillFree_wf h _ _ _) _ _ _

theorem Keeps.enterError {s u : State} (e : ErrorCode) (h : Keeps s u) : Keeps s (enterError e u) :=
  ⟨h.cfg, h.lat, h.sizes, h.lens, fun w => cloudBuffers_wf (h.memory w)⟩

/-- What an operation that runs on keeps besides: no error is recorded, the regions stay lent, and OUT_COUNT stays within
WORK_SIZE (R30). -/
structure Progresses (s t : State) : Prop extends Keeps s t where
  errCode : t.errCode = s.errCode
  errState : t.errState = s.errState
  loan : t.loan = s.loan
  room : s.outCount.toNat ≤ s.sizes.workSize.toNat → t.outCount.toNat ≤ s.sizes.workSize.toNat

theorem Progresses.refl (s : State) : Progresses s s := ⟨.refl s, rfl, rfl, rfl, id⟩

theorem Progresses.trans {s t u : State} (h : Progresses s t) (h' : Progresses t u) : Progresses s u :=
  ⟨h.toKeeps.trans h'.toKeeps, h'.errCode.trans h.errCode, h'.errState.trans h.errState, h'.loan.trans h.loan,
    fun hr => h.sizes ▸ h'.room (by rw [h.sizes]; exact h.room hr)⟩

/-- A move inside the engine's own scratch: cursor, tables, counters and latches of the block, STATE and phase. -/
theorem Progresses.of_scratch {s t : State} (h : t = { s with
    st := t.st
    phase := t.phase
    blockCount := t.blockCount
    cur := t.cur
    bfinal := t.bfinal
    btype := t.btype
    ll := t.ll
    dt := t.dt
    clt := t.clt
    dyn := t.dyn
    storedRem := t.storedRem
    copyLen := t.copyLen
    copyDist := t.copyDist
    row := t.row
    draws := t.draws }) (hl : t.dyn.lens.length = s.dyn.lens.length) : Progresses s t := by
  rw [h]
  exact ⟨⟨rfl, rfl, rfl, hl, id⟩, rfl, rfl, rfl, id⟩

theorem Progresses.goto {s t : State} (st : EngineState) (h : Progresses s t) : Progresses s (goto st t) :=
  h.trans (.of_scratch rfl rfl)

theorem MovesCursor.progresses {s t : State} (h : MovesCursor s t) : Progresses s t :=
  .of_scratch (by rw [h]) (by rw [h])

theorem WritesWork.progresses {s t : State} (h : WritesWork s t) : Progresses s t := by
  refine ⟨⟨?_, h.lat, h.sizes, ?_, h.wf⟩, ?_, ?_, ?_, fun _ => h.room⟩ <;> rw [h.frame]

theorem CopiesStored.progresses {s t : State} (h : CopiesStored s t) : Progresses s t := by
  refine ⟨⟨?_, ?_, ?_, ?_, h.wf⟩, ?_, ?_, ?_, fun _ => h.room⟩ <;> rw [h.frame]

/-- A raise of an operation that began in `s`: a block's error in a state that keeps what error entry needs (R147). -/
structure RaisesFrom (s : State) (e : ErrorCode) (u : State) : Prop where
  code : e.raised
  keeps : Keeps s u
  st : u.st = s.st

theorem RaisesFrom.self {e : ErrorCode} (s : State) (he : e.raised) : RaisesFrom s e s := ⟨he, .refl s, rfl⟩

theorem RaisesFrom.of_keeps {s t u : State} {e : ErrorCode} (hk : Keeps s t) (hs : t.st = s.st) (h : RaisesFrom t e u) :
    RaisesFrom s e u := ⟨h.code, hk.trans h.keeps, h.st.trans hs⟩

theorem MovesCursor.raisesFrom {s u : State} {e : ErrorCode} (h : MovesCursor s u) (he : e.raised) : RaisesFrom s e u :=
  ⟨he, h.progresses.toKeeps, by rw [h]⟩

/-- The reader's one error (R75). -/
theorem raisesFrom_truncated {s : State} (e : ErrorCode) (u : State) (h : e = .truncatedInput ∧ MovesCursor s u) :
    RaisesFrom s e u := by
  obtain ⟨rfl, hm⟩ := h
  exact hm.raisesFrom ⟨nofun, nofun⟩

/-- The Huffman unit's errors (R93). -/
theorem raisesFrom_huffman {s : State} (e : ErrorCode) (u : State)
    (h : (e = .corruptHuffmanStream ∨ e = .truncatedInput) ∧ MovesCursor s u) : RaisesFrom s e u := by
  obtain ⟨rfl | rfl, hm⟩ := h
  · exact hm.raisesFrom ⟨nofun, nofun⟩
  · exact hm.raisesFrom ⟨nofun, nofun⟩

/-! ### Error entry and the boundary states -/

theorem Inv.workPlaced {s : State} (hi : Inv s) (hd : s.decoding = true) : workPlaced s :=
  ⟨hi.room hd, (hi.placed hd).2.1⟩

theorem busyState_of_decodingState (st : EngineState) (h : decodingState st = true) : busyState st = true := by
  cases st <;> trivial

theorem busy_of_decoding {s : State} (h : s.decoding = true) : s.busy = true := busyState_of_decodingState s.st h

theorem decoding_of_st {s : State} {st : EngineState} (h : s.st = st) (hd : decodingState st = true) :
    s.decoding = true := by
  unfold State.decoding
  rw [h]
  exact hd

/-- Error entry from a busy state keeps the invariant (R147). -/
theorem inv_enterError {e : ErrorCode} {u : State} (he : e.raised) (hm : u.mem.wf) (hc : u.cfg.ihdrFmt1.toNat < 512)
    (hl : u.dyn.lens.length = lensCap) (hb : u.busy = true) : Inv (enterError e u) where
  memory := cloudBuffers_wf hm
  reservedZero := hc
  noErrorKept := fun h => absurd rfl h
  errorKept := fun _ => ⟨he.1, he.2, hb⟩
  codePhase := nofun
  matchPhase := nofun
  idleCursor := nofun
  countsZero := nofun
  sizesZero := nofun
  latched := nofun
  sized := nofun
  placed := nofun
  room := nofun
  full := nofun
  cursor := nofun
  aligned := nofun
  lengthArray := hl
  lengthCounts := nofun
  codeTable := nofun
  bodyTables := nofun
  matchLength := nofun
  lent := nofun
  rowInside := nofun

theorem RaisesFrom.inv {s u : State} {e : ErrorCode} (hi : Inv s) (hb : s.busy = true) (h : RaisesFrom s e u) :
    Inv (enterError e u) :=
  inv_enterError h.code (h.keeps.memory hi.memory) (by rw [h.keeps.cfg]; exact hi.reservedZero)
    (h.keeps.lens.trans hi.lengthArray) (by unfold State.busy at *; rw [h.st]; exact hb)

/-- The tables of a block body are built tables (R33, R97). -/
def tablesBuilt (s : State) : Prop :=
  (∃ lens d, lens.length ≤ llCap ∧ s.ll = build llShape lens d)
    ∧ ∃ lens d, lens.length ≤ distCap ∧ s.dt = build dtShape lens d

/-- An operation of a decode that ends at a boundary of a decode keeps the invariant, once what its new state asks for holds. -/
theorem Progresses.inv {s t : State} (h : Progresses s t) (hi : Inv s) (hd : s.decoding = true) (htd : t.decoding = true)
    (hp : t.phase = .boundary) (hc : t.cur.sound) (ha : t.st = .zlibHeader → t.cur.bit = 0)
    (hb : t.st = .blockBody → tablesBuilt t)
    (hf : t.st = .filter → t.outCount = t.sizes.workSize ∧ t.row.toNat < t.lat.h.toNat) : Inv t := by
  have hne : ∀ {st : EngineState}, decodingState st = false → t.st ≠ st := fun h0 hst => by
    unfold State.decoding at htd
    rw [hst, h0] at htd
    cases htd
  have hse : s.st ≠ .error := fun hst => by
    unfold State.decoding at hd
    rw [hst] at hd
    cases hd
  obtain ⟨hcode, hstate⟩ := hi.noErrorKept hse
  have hlat := h.lat
  have hsizes := h.sizes
  refine
    { memory := h.memory hi.memory
      reservedZero := by rw [h.cfg]; exact hi.reservedZero
      noErrorKept := fun _ => ⟨h.errCode.trans hcode, h.errState.trans hstate⟩
      errorKept := fun hst => absurd hst (hne rfl)
      codePhase := fun hq => by rw [hp] at hq; cases hq
      matchPhase := fun hq => by rw [hp] at hq; cases hq
      idleCursor := fun hst => absurd hst (hne rfl)
      countsZero := fun hst => hst.elim (fun hst => absurd hst (hne rfl)) fun hst => absurd hst (hne rfl)
      sizesZero := fun hst => hst.elim (fun hst => absurd hst (hne rfl)) fun hst => absurd hst (hne rfl)
      latched := fun _ => ?_
      sized := fun _ => ?_
      placed := fun _ => ?_
      room := fun _ => by rw [hsizes]; exact h.room (hi.room hd)
      full := fun hst => hst.elim (fun hst => (hf hst).1) fun hst => absurd hst (hne rfl)
      cursor := fun _ => hc
      aligned := ha
      lengthArray := h.lens.trans hi.lengthArray
      lengthCounts := fun hq => by rw [hp] at hq; cases hq
      codeTable := fun hq => by rw [hp] at hq; cases hq
      bodyTables := hb
      matchLength := fun hq => by rw [hp] at hq; cases hq
      lent := fun _ => by rw [h.loan]; exact hi.lent (busy_of_decoding hd)
      rowInside := fun hst => (hf hst).2 }
  · unfold State.latched; rw [hlat, h.cfg]; exact hi.latched hd
  · unfold State.sized; rw [hlat, hsizes]; exact hi.sized (.inl hd)
  · unfold State.placed tableReadable; rw [hlat, hsizes]; exact hi.placed hd

/-- The invariant holds after a fetch, which moves the cursor and, for a block header, sets BFINAL (R101). -/
theorem Inv.fetched {s u : State} (hi : Inv s) (hd : s.decoding = true)
    (hu : u = { s with cur := u.cur, bfinal := u.bfinal }) (hc : u.cur.sound)
    (ha : s.st = .zlibHeader → u.cur.bit = 0) : Inv u := by
  rw [hu]
  exact
    { hi with
      idleCursor := fun (h : s.st = .idle) => by rw [State.decoding, h] at hd; cases hd
      cursor := fun _ => hc
      aligned := ha }

theorem Inv.moved {s u : State} (hi : Inv s) (hd : s.decoding = true) (hm : MovesCursor s u) (hc : u.cur.sound)
    (ha : s.st = .zlibHeader → u.cur.bit = 0) : Inv u := hi.fetched hd (by rw [hm]) hc ha

/-- What every operation past CONFIG_CHECK answers: the invariant holds, and registers, latches and sizes are kept. -/
structure Decodes (s t : State) : Prop where
  inv : Inv t
  keeps : Keeps s t

/-- An operation past CONFIG_CHECK does not stop (R162): it answers a next state. -/
def Answers (s : State) (o : Host.Outcome State Fault Refusal) : Prop := ∃ t, o = .next t ∧ Decodes s t

theorem Answers.decodes {s t : State} {o : Host.Outcome State Fault Refusal} (h : Answers s o) (ho : o = .next t) :
    Decodes s t := by
  obtain ⟨u, hu, hd⟩ := h
  rw [hu] at ho
  cases ho
  exact hd

theorem RaisesFrom.decodes {s u : State} {e : ErrorCode} (h : RaisesFrom s e u) (hi : Inv s) (hb : s.busy = true) :
    Decodes s (enterError e u) := ⟨h.inv hi hb, h.keeps.enterError e⟩

/-- The end of an operation, by what holds where it runs through and where it raises. -/
theorem Run.All.answers {s : State} {x : Run Unit} (hi : Inv s) (hd : s.decoding = true)
    (hx : x.All False (fun _ t => Decodes s t) (RaisesFrom s)) : Answers s x.finish := by
  cases x with
  | ok a t => exact ⟨t, rfl, hx⟩
  | raise e u => exact ⟨_, rfl, hx.decodes hi (busy_of_decoding hd)⟩
  | fault f => exact hx.elim
  | refuse r => exact hx.elim

theorem raise_answers {s u : State} {e : ErrorCode} (hi : Inv s) (hd : s.decoding = true) (h : RaisesFrom s e u) :
    Answers s (Run.raise e u : Run Unit).finish := Run.All.answers hi hd h

end Sys2Proof.Machine
end

section
/-! PROOFS. The operations past CONFIG_CHECK, one lemma each: none stops, each keeps the invariant (43_inflate_blocks to
45_filter). -/

namespace Sys2Proof.Machine

theorem Progresses.decodes {s t : State} (h : Progresses s t) (hi : Inv s) (hd : s.decoding = true)
    (htd : t.decoding = true) (hp : t.phase = .boundary) (hc : t.cur.sound) (ha : t.st = .zlibHeader → t.cur.bit = 0)
    (hb : t.st = .blockBody → tablesBuilt t)
    (hf : t.st = .filter → t.outCount = t.sizes.workSize ∧ t.row.toNat < t.lat.h.toNat) : Decodes s t :=
  ⟨h.inv hi hd htd hp hc ha hb hf, h.toKeeps⟩

theorem Inv.tableReadable {s : State} (hi : Inv s) (hd : s.decoding = true) : tableReadable s := (hi.placed hd).1

theorem Inv.sound {s : State} (hi : Inv s) (hd : s.decoding = true) : s.cur.sound := hi.cursor hd

theorem Cursor.sound_of_bit {c : Cursor} (h : c.bit = 0) : c.sound := fun hne => absurd h hne

/-! ### The zlib header and the block headers -/

theorem exec_zlibCmf_answers {i : Instr} {s : State} (hi : Inv s) (hst : s.st = .zlibHeader)
    (hf : formatOf i = .zlibCmf) : Answers s (exec i s) := by
  have hd := decoding_of_st hst rfl
  rcases exec_zlibCmf hf with ⟨cinfo, rfl⟩ | hbad
  · refine Run.All.answers hi hd (Run.All.bind
      ((readByte_all s).imp (fun h => h (hi.tableReadable hd)) (fun _ _ h => h) raisesFrom_truncated) ?_)
    rintro flg u ⟨hm, hb⟩
    have hbit : u.cur.bit = 0 := hb.trans (hi.aligned hst)
    exact (hm.progresses.goto .blockHeader).decodes hi hd rfl rfl (Cursor.sound_of_bit hbit) nofun nofun nofun
  · rw [hbad]
    exact raise_answers hi hd (.self s ⟨nofun, nofun⟩)

theorem latchBlock_progresses (bfinal : BitVec 1) (btype : BitVec 2) (s : State) :
    Progresses s (latchBlock bfinal btype s) := .of_scratch rfl rfl

theorem exec_blockHeader_answers {i : Instr} {s : State} (hi : Inv s) (hst : s.st = .blockHeader)
    (hf : formatOf i = .blockHeader) : Answers s (exec i s) := by
  have hd := decoding_of_st hst rfl
  have hgo (f : BitVec 1) (b : BitVec 2) (st : EngineState) := (latchBlock_progresses f b s).goto st
  match i, hf with
  | .blockStored f, _ =>
    exact ⟨_, rfl, (hgo f 0 .storedBlock).decodes hi hd rfl rfl (hi.sound hd) nofun nofun nofun⟩
  | .blockFixed f, _ =>
    exact ⟨_, rfl, (hgo f 1 .fixedTables).decodes hi hd rfl rfl (hi.sound hd) nofun nofun nofun⟩
  | .blockDynamic f, _ =>
    exact ⟨_, rfl, (hgo f 2 .dynamicTables).decodes hi hd rfl rfl (hi.sound hd) nofun nofun nofun⟩
  | .blockReserved f, _ =>
    exact raise_answers hi hd ⟨⟨nofun, nofun⟩, (latchBlock_progresses f 3 s).toKeeps, rfl⟩

/-- The block loop ends or goes on (R102). -/
theorem blockEnd_decodes {s u : State} (h : Progresses s u) (hi : Inv s) (hd : s.decoding = true) (hc : u.cur.sound) :
    Decodes s (blockEnd u) := by
  unfold blockEnd
  split
  · exact (h.goto .trailer).decodes hi hd rfl rfl hc nofun nofun nofun
  · exact (h.goto .blockHeader).decodes hi hd rfl rfl hc nofun nofun nofun

/-! ### Stored blocks -/

/-- LEN and NLEN are read from the next byte boundary on (R103). -/
theorem storedHeader_all {s : State} (ht : tableReadable s) :
    (storedHeader s).All False
      (fun _ t => t = { s with cur := t.cur, storedRem := t.storedRem } ∧ t.cur.bit = 0) (RaisesFrom s) := by
  obtain ⟨ha, hb⟩ := alignToByte_moves s
  have moved {u : State} (hu : MovesCursor s u) (ht' : ¬ Machine.tableReadable u) : False :=
    ht' (hu.tableReadable.2 ht)
  have raised {u : State} (hu : MovesCursor s u) (e : ErrorCode) (v : State)
      (h : e = .truncatedInput ∧ MovesCursor u v) : RaisesFrom s e v :=
    raisesFrom_truncated e v ⟨h.1, hu.trans h.2⟩
  refine Run.All.bind ((readByte_all _).imp (moved ha) (fun _ _ h => h) (raised ha)) ?_
  rintro b0 u ⟨hu, hub⟩
  refine Run.All.bind ((readByte_all _).imp (moved (ha.trans hu)) (fun _ _ h => h) (raised (ha.trans hu))) ?_
  rintro b1 v ⟨hv, hvb⟩
  have hsv := (ha.trans hu).trans hv
  refine Run.All.bind ((readBytes_all 2 _).imp (moved hsv) (fun _ _ h => h) (raised hsv)) ?_
  rintro nlen w ⟨hw, hwb, -⟩
  refine ⟨?_, hwb.trans (hvb.trans (hub.trans hb))⟩
  rw [hsv.trans hw]

theorem runStoredBlock_answers {s : State} (hi : Inv s) (hst : s.st = .storedBlock) : Answers s (runStoredBlock s) := by
  have hd := decoding_of_st hst rfl
  refine Run.All.answers hi hd (Run.All.bind (storedHeader_all (hi.tableReadable hd)) ?_)
  rintro - u ⟨hu, hb⟩
  have hp : Progresses s u := .of_scratch (by rw [hu]) (by rw [hu])
  have hw : workPlaced u := by rw [hu]; exact hi.workPlaced hd
  have ht : tableReadable u := by rw [hu]; exact hi.tableReadable hd
  refine (copyStored_all _ hw ht).imp id ?_ ?_
  · rintro - t ⟨v, hv, rfl⟩
    exact blockEnd_decodes (hp.trans hv.progresses) hi hd (Cursor.sound_of_bit (hv.bit.trans hb))
  · rintro e t ⟨he, hlat, hsizes, hcfg, hst', hdyn, hmem⟩
    refine ⟨?_, hp.toKeeps.trans ⟨hcfg, hlat, hsizes, by rw [hdyn], hmem⟩, by rw [hst', hu]⟩
    rcases he with rfl | rfl <;> exact ⟨nofun, nofun⟩

/-! ### Tables -/

/-- BLOCK_BODY is entered with the two tables just built (R105, R113). -/
theorem buildTables_decodes {litlen dist : List Nat} {s : State} (hi : Inv s) (hd : s.decoding = true)
    (hl : litlen.length ≤ llCap) (hdist : dist.length ≤ distCap) :
    Decodes s (goto .blockBody (buildTables litlen dist s)) :=
  have hp : Progresses s (buildTables litlen dist s) := .of_scratch rfl rfl
  (hp.goto .blockBody).decodes hi hd rfl rfl (hi.sound hd) nofun
    (fun _ => ⟨⟨litlen, _, hl, rfl⟩, ⟨dist, _, hdist, rfl⟩⟩) nofun

theorem fixedLitlenLengths_length : fixedLitlenLengths.length = llCap := by
  simp only [fixedLitlenLengths, List.length_append, List.length_replicate, llCap]

theorem fixedDistLengths_length : fixedDistLengths.length = distCap := List.length_replicate

theorem runFixedTables_answers {s : State} (hi : Inv s) (hst : s.st = .fixedTables) : Answers s (runFixedTables s) :=
  ⟨_, rfl, buildTables_decodes hi (decoding_of_st hst rfl) fixedLitlenLengths_length.le fixedDistLengths_length.le⟩

theorem lensSlice_length_le (s : State) (a n : Nat) : (lensSlice s a n).length ≤ n := by
  unfold lensSlice
  simp

theorem runDynFinish_answers {s : State} (hi : Inv s) (hp : s.phase = .clSymbols) : Answers s (runDynFinish s) := by
  obtain ⟨-, hlit, -, hdist, -⟩ := hi.lengthCounts hp
  exact ⟨_, rfl, buildTables_decodes hi (decoding_of_st (hi.codePhase hp) rfl)
    ((lensSlice_length_le ..).trans hlit) ((lensSlice_length_le ..).trans hdist)⟩

/-- The scratch may change as long as LENS keeps its length. -/
theorem progresses_dyn {s : State} (d : DynScratch) (h : d.lens.length = s.dyn.lens.length) :
    Progresses s { s with dyn := d } := .of_scratch rfl h

/-- A read of bits in an operation that began in `s` and has come to `u`. -/
theorem readBits_within {s u : State} (n : Nat) (hp : Progresses s u) (hst : u.st = s.st) (ht : tableReadable s) :
    (readBits n u).All False (fun v t => MovesCursor u t ∧ v < 2 ^ n ∧ (u.cur.sound → t.cur.sound)) (RaisesFrom s) :=
  (readBits_all n u).imp (fun h => h (by unfold Machine.tableReadable at *; rw [hp.lat]; exact ht)) (fun _ _ h => h)
    fun e t h => (raisesFrom_truncated e t h).of_keeps hp.toKeeps hst

/-- The three counts (R106): HLIT is 257 to 288 and HDIST 1 to 32. -/
theorem dynCounts_all {s : State} (ht : tableReadable s) :
    (dynCounts s).All False
      (fun _ t => t = { s with cur := t.cur, dyn := { s.dyn with
            hlit := t.dyn.hlit
            hdist := t.dyn.hdist
            hclen := t.dyn.hclen } }
        ∧ 257 ≤ t.dyn.hlit.toNat ∧ t.dyn.hlit.toNat ≤ 288 ∧ 1 ≤ t.dyn.hdist.toNat ∧ t.dyn.hdist.toNat ≤ 32
        ∧ (s.cur.sound → t.cur.sound))
      (RaisesFrom s) := by
  unfold dynCounts
  refine Run.All.bind (readBits_within 5 (.refl s) rfl ht) ?_
  rintro hl u ⟨hu, hl5, hus⟩
  dsimp only
  have hpu := hu.progresses.trans
    (progresses_dyn { u.dyn with hlit := BitVec.ofNat 9 (hl + 257) } rfl)
  refine Run.All.bind (readBits_within 5 hpu (by rw [hu]) ht) ?_
  rintro hd v ⟨hv, hd5, hvs⟩
  have hpv := (hpu.trans hv.progresses).trans
    (progresses_dyn { v.dyn with hdist := BitVec.ofNat 6 (hd + 1) } rfl)
  refine Run.All.bind (readBits_within 4 hpv (by rw [hv, hu]) ht) ?_
  rintro hc w ⟨hw, -, hws⟩
  have hlit : w.dyn.hlit = BitVec.ofNat 9 (hl + 257) := by rw [hw, hv]
  have hdist : w.dyn.hdist = BitVec.ofNat 6 (hd + 1) := by rw [hw]
  refine ⟨by rw [hw, hv, hu], ?_, ?_, ?_, ?_, fun h => hws (hvs (hus h))⟩
  · show 257 ≤ w.dyn.hlit.toNat
    rw [hlit, BitVec.toNat_ofNat]; omega
  · show w.dyn.hlit.toNat ≤ 288
    rw [hlit, BitVec.toNat_ofNat]; omega
  · show 1 ≤ w.dyn.hdist.toNat
    rw [hdist, BitVec.toNat_ofNat]; omega
  · show w.dyn.hdist.toNat ≤ 32
    rw [hdist, BitVec.toNat_ofNat]; omega

/-- The code-length-code lengths (R107): as many as the table has symbols. -/
theorem readClLengths_all (ps : List Nat) (cl : List Nat) {s : State} (ht : tableReadable s) :
    (readClLengths ps cl s).All False
      (fun l t => MovesCursor s t ∧ l.length = cl.length ∧ (s.cur.sound → t.cur.sound)) (RaisesFrom s) := by
  induction ps generalizing cl s with
  | nil => exact ⟨.refl s, rfl, id⟩
  | cons p ps ih =>
    unfold readClLengths
    refine Run.All.bind (readBits_within 3 (.refl s) rfl ht) ?_
    rintro v u ⟨hu, -, hus⟩
    refine (ih (cl.set p v) (hu.tableReadable.2 ht)).imp id ?_ ?_
    · rintro l t ⟨h1, h2, h3⟩
      exact ⟨hu.trans h1, h2.trans List.length_set, fun h => h3 (hus h)⟩
    · exact fun e t h => h.of_keeps hu.progresses.toKeeps (by rw [hu])

/-- The code-length table (R107): a built table of 19 symbols, and no length is read yet. -/
theorem dynClTable_all {s : State} (ht : tableReadable s) :
    (dynClTable s).All False
      (fun _ t => t = { s with
            cur := t.cur
            clt := t.clt
            draws := t.draws
            dyn := { s.dyn with nl := 0 } }
        ∧ (∃ lens d, lens.length = clCap ∧ t.clt = build cltShape lens d) ∧ (s.cur.sound → t.cur.sound))
      (RaisesFrom s) := by
  refine Run.All.bind (readClLengths_all _ _ ht) ?_
  rintro cl u ⟨hu, hcl, hus⟩
  exact ⟨by rw [hu], ⟨cl, _, hcl.trans List.length_replicate, rfl⟩, hus⟩

/-- Inside DYNAMIC_TABLES (R108), from its boundary. -/
theorem Inv.enterCodes {s : State} (hi : Inv s) (hst : s.st = .dynamicTables)
    (hcounts : 257 ≤ s.dyn.hlit.toNat ∧ s.dyn.hlit.toNat ≤ 288 ∧ 1 ≤ s.dyn.hdist.toNat ∧ s.dyn.hdist.toNat ≤ 32
      ∧ s.dyn.nl.toNat ≤ s.dyn.hlit.toNat + s.dyn.hdist.toNat)
    (htable : ∃ lens d, lens.length = clCap ∧ s.clt = build cltShape lens d) : Inv { s with phase := .clSymbols } :=
  { hi with
    codePhase := fun _ => hst
    matchPhase := nofun
    lengthCounts := fun _ => hcounts
    codeTable := fun _ => htable
    matchLength := nofun }

theorem runDynHeader_answers {s : State} (hi : Inv s) (hst : s.st = .dynamicTables) (hp : s.phase = .boundary) :
    Answers s (runDynHeader s) := by
  have hd := decoding_of_st hst rfl
  have ht := hi.tableReadable hd
  refine Run.All.answers hi hd (Run.All.bind (dynCounts_all ht) ?_)
  rintro - u ⟨hu, hlit, hlit', hdist, hdist', hus⟩
  have hpu : Progresses s u := .of_scratch (by rw [hu]) (by rw [hu])
  have htu : tableReadable u := by rw [hu]; exact ht
  refine Run.All.bind ((dynClTable_all htu).imp id (fun _ _ h => h)
    fun e v h => h.of_keeps hpu.toKeeps (by rw [hu])) ?_
  rintro - v ⟨hv, htable, hvs⟩
  have hpv : Progresses s v :=
    hpu.trans (.of_scratch (by rw [hv]) (by rw [hv]))
  have hstv : v.st = .dynamicTables := by rw [hv, hu]; exact hst
  have hiv : Inv v :=
    hpv.inv hi hd (decoding_of_st hstv rfl) (by rw [hv, hu]; exact hp) (hvs (hus (hi.sound hd)))
      (by rw [hstv]; nofun) (by rw [hstv]; nofun) (by rw [hstv]; nofun)
  have hdyn : v.dyn = { u.dyn with nl := 0 } := by rw [hv]
  refine ⟨hiv.enterCodes hstv ?_ htable, hpv.toKeeps.trans ⟨rfl, rfl, rfl, rfl, id⟩⟩
  rw [hdyn]
  exact ⟨hlit, hlit', hdist, hdist', Nat.zero_le _⟩

/-! ### Code-length symbols -/

/-- Code lengths appended within HLIT + HDIST (R109, R110). -/
theorem Inv.appended {s : State} {l : List (BitVec 4)} {n : BitVec 9} (hi : Inv s) (hp : s.phase = .clSymbols)
    (hl : l.length = s.dyn.lens.length) (hn : n.toNat ≤ s.dyn.hlit.toNat + s.dyn.hdist.toNat) :
    Decodes s { s with dyn := { s.dyn with lens := l, nl := n } } := by
  obtain ⟨h1, h2, h3, h4, -⟩ := hi.lengthCounts hp
  exact ⟨{ hi with
      lengthArray := hl.trans hi.lengthArray
      lengthCounts := fun _ => ⟨h1, h2, h3, h4, hn⟩ },
    (progresses_dyn _ hl).toKeeps⟩

theorem nl_add {s : State} (hi : Inv s) (hp : s.phase = .clSymbols) {k : Nat}
    (h : s.dyn.nl.toNat + k ≤ s.dyn.hlit.toNat + s.dyn.hdist.toNat) :
    (s.dyn.nl + BitVec.ofNat 9 k).toNat = s.dyn.nl.toNat + k := by
  obtain ⟨-, h2, -, h4, -⟩ := hi.lengthCounts hp
  rw [BitVec.toNat_add, BitVec.toNat_ofNat]
  omega

theorem Decodes.of_progress {s u t : State} (hp : Progresses s u) (h : Decodes u t) : Decodes s t :=
  ⟨h.inv, hp.toKeeps.trans h.keeps⟩

/-- A repeat (R110 to R112): its count is read, then the lengths are appended. -/
theorem repeat_answers {s : State} (hi : Inv s) (hp : s.phase = .clSymbols) (v : BitVec 4) (k base : Nat) :
    Answers s ((readBits k s).bind fun e s => appendLengths v (base + e) s).finish := by
  have hst := hi.codePhase hp
  have hd := decoding_of_st hst rfl
  refine Run.All.answers hi hd (Run.All.bind (readBits_within k (.refl s) rfl (hi.tableReadable hd)) ?_)
  rintro e u ⟨hu, -, hus⟩
  have hiu : Inv u := hi.moved hd hu (hus (hi.sound hd)) (by rw [hst]; nofun)
  have hpu : u.phase = .clSymbols := by rw [hu]; exact hp
  refine (appendLengths_all v (base + e) u).imp id ?_ ?_
  · rintro - t ⟨hroom, rfl⟩
    exact .of_progress hu.progresses (hiu.appended hpu (setLengths_length ..) (by rw [nl_add hiu hpu hroom]; exact hroom))
  · rintro e t ⟨rfl, rfl⟩
    exact ⟨⟨nofun, nofun⟩, hu.progresses.toKeeps, by rw [hu]⟩

theorem exec_clSymbol_answers {i : Instr} {s : State} (hi : Inv s) (hp : s.phase = .clSymbols)
    (hc : lengthsComplete s = false) (hf : formatOf i = .clSymbol) : Answers s (exec i s) := by
  match i, hf with
  | .cl len, _ =>
    obtain ⟨-, -, -, -, hn⟩ := hi.lengthCounts hp
    have hroom : s.dyn.nl.toNat + 1 ≤ s.dyn.hlit.toNat + s.dyn.hdist.toNat :=
      lt_of_le_of_ne hn (by simpa [lengthsComplete] using hc)
    exact ⟨_, rfl, hi.appended hp List.length_set (by rw [← nl_add hi hp hroom] at hroom; exact hroom)⟩
  | .cl16, _ =>
    show Answers s (execCl16 s)
    unfold execCl16
    split
    · exact raise_answers hi (decoding_of_st (hi.codePhase hp) rfl) (.self s ⟨nofun, nofun⟩)
    · exact repeat_answers hi hp _ 2 3
  | .cl17, _ => exact repeat_answers hi hp 0 3 3
  | .cl18, _ => exact repeat_answers hi hp 0 7 11

/-! ### The block body -/

theorem Inv.tablesBuilt {s : State} (hi : Inv s) (hst : s.st = .blockBody) : tablesBuilt s := hi.bodyTables hst

/-- An element of BLOCK_BODY that ends at the boundary: STATE and the tables as they were. -/
theorem Progresses.body {s t : State} (h : Progresses s t) (hi : Inv s) (hs : s.st = .blockBody) (ht : t.st = s.st)
    (hp : t.phase = .boundary) (hc : t.cur.sound) (hll : t.ll = s.ll) (hdt : t.dt = s.dt) : Decodes s t := by
  have hst := ht.trans hs
  refine h.decodes hi (decoding_of_st hs rfl) (decoding_of_st hst rfl) hp hc (by rw [hst]; nofun) (fun _ => ?_)
    (by rw [hst]; nofun)
  unfold Machine.tablesBuilt
  rw [hll, hdt]
  exact hi.tablesBuilt hs

theorem emit_answers {s : State} (hi : Inv s) (hst : s.st = .blockBody) (hp : s.phase = .boundary) (b : Byte) :
    Answers s (emit b s).finish := by
  have hd := decoding_of_st hst rfl
  refine Run.All.answers hi hd ((emit_work b (hi.workPlaced hd)).imp id ?_ ?_)
  · intro _ t hw
    have hf := hw.frame
    refine hw.progresses.body hi hst (by rw [hf]) (by rw [hf]; exact hp) ?_ (by rw [hf]) (by rw [hf])
    rw [hf]
    exact hi.sound hd
  · rintro e t ⟨rfl, rfl⟩
    exact .self t ⟨nofun, nofun⟩

/-- A length symbol (R120) leaves a length of 3 to 258 for the distance symbol. -/
theorem lengthSymbol_answers {s : State} (hi : Inv s) (hst : s.st = .blockBody) {base ext : Nat} (hb : 3 ≤ base)
    (he : base + 2 ^ ext ≤ 259) : Answers s (lengthSymbol base ext s) := by
  have hd := decoding_of_st hst rfl
  refine Run.All.answers hi hd (Run.All.bind (readBits_within ext (.refl s) rfl (hi.tableReadable hd)) ?_)
  rintro e u ⟨hu, hlt, hus⟩
  have hiu : Inv u := hi.moved hd hu (hus (hi.sound hd)) (by rw [hst]; nofun)
  have hlen : (BitVec.ofNat 9 (base + e)).toNat = base + e := by
    rw [BitVec.toNat_ofNat]
    omega
  refine .of_progress hu.progresses ⟨?_, ⟨rfl, rfl, rfl, rfl, id⟩⟩
  exact
    { hiu with
      codePhase := nofun
      matchPhase := fun _ => by rw [hu]; exact hst
      lengthCounts := nofun
      codeTable := nofun
      matchLength := fun _ => ⟨by rw [hlen]; omega, by rw [hlen]; omega⟩ }

/-- A distance symbol (R120 to R122) copies within the work buffer or fails. -/
theorem distanceSymbol_answers {s : State} (hi : Inv s) (hst : s.st = .blockBody) {base ext : Nat} (hb : 1 ≤ base)
    (he : base + 2 ^ ext ≤ 32769) : Answers s (distanceSymbol base ext s) := by
  have hd := decoding_of_st hst rfl
  refine Run.All.answers hi hd (Run.All.bind (readBits_within ext (.refl s) rfl (hi.tableReadable hd)) ?_)
  rintro e u ⟨hu, hlt, hus⟩
  dsimp only
  have hdist : (BitVec.ofNat 16 (base + e)).toNat = base + e := by
    rw [BitVec.toNat_ofNat]
    omega
  have hp : Progresses s { u with copyDist := BitVec.ofNat 16 (base + e) } :=
    hu.progresses.trans (.of_scratch rfl rfl)
  split
  · exact ⟨⟨nofun, nofun⟩, hp.toKeeps, by rw [hu]⟩
  · rename_i hout
    have hw : workPlaced { u with copyDist := BitVec.ofNat 16 (base + e) } := by rw [hu]; exact hi.workPlaced hd
    refine Run.All.bind ((copyMatch_all u.copyLen.toNat hw (not_lt.1 hout) (by show 0 < (BitVec.ofNat 16 _).toNat; omega)).imp id
      (fun _ _ h => h) ?_) ?_
    · rintro e t ⟨rfl, ht⟩
      exact ⟨⟨nofun, nofun⟩, hp.toKeeps.trans ht.progresses.toKeeps, by rw [ht.frame, hu]⟩
    · intro _ t ht
      have hf := ht.frame
      have hpt : Progresses s { t with phase := .boundary } :=
        (hp.trans ht.progresses).trans (.of_scratch rfl rfl)
      refine hpt.body hi hst (by rw [hf, hu]) rfl ?_ (by rw [hf, hu]) (by rw [hf, hu])
      rw [hf]
      exact hus (hi.sound hd)

theorem exec_litlenSymbol_answers {i : Instr} {s : State} (hi : Inv s) (hst : s.st = .blockBody)
    (hp : s.phase = .boundary) (hf : formatOf i = .litlenSymbol) : Answers s (exec i s) := by
  have hd := decoding_of_st hst rfl
  rcases litlenSymbol_cases hf with ⟨byte, rfl⟩ | rfl | ⟨r, hr, rfl⟩ | ⟨low, rfl⟩
  · exact emit_answers hi hst hp byte
  · exact ⟨_, rfl, blockEnd_decodes (.refl s) hi hd (hi.sound hd)⟩
  · obtain ⟨hb, he⟩ := lengthRow_range r hr
    rw [exec_lengthRow hr]
    exact lengthSymbol_answers hi hst hb he
  · exact raise_answers hi hd (.self s ⟨nofun, nofun⟩)

theorem exec_distSymbol_answers {i : Instr} {s : State} (hi : Inv s) (hp : s.phase = .distSymbol)
    (hf : formatOf i = .distSymbol) : Answers s (exec i s) := by
  have hst := hi.matchPhase hp
  rcases distSymbol_cases hf with ⟨r, hr, rfl⟩ | ⟨low, rfl⟩
  · obtain ⟨hb, he⟩ := distanceRow_range r hr
    rw [exec_distanceRow hr]
    exact distanceSymbol_answers hi hst hb he
  · exact raise_answers hi (decoding_of_st hst rfl) (.self s ⟨nofun, nofun⟩)

/-! ### The end of the stream and the filter pass -/

theorem runTrailer_answers {s : State} (hi : Inv s) (hst : s.st = .trailer) : Answers s (runTrailer s) := by
  have hd := decoding_of_st hst rfl
  obtain ⟨ha, hb⟩ := alignToByte_moves s
  refine Run.All.answers hi hd (Run.All.bind ((readBytes_all 4 _).imp
    (fun h => h (ha.tableReadable.2 (hi.tableReadable hd))) (fun _ _ h => h)
    fun e t h => raisesFrom_truncated e t ⟨h.1, ha.trans h.2⟩) ?_)
  rintro adler u ⟨hu, hub, -⟩
  exact ((ha.trans hu).progresses.goto .sizeCheck).decodes hi hd rfl rfl (Cursor.sound_of_bit (hub.trans hb))
    nofun nofun nofun

theorem runSizeCheck_answers {s : State} (hi : Inv s) (hst : s.st = .sizeCheck) : Answers s (runSizeCheck s) := by
  have hd := decoding_of_st hst rfl
  obtain ⟨-, -, -, hh, -⟩ := hi.sized (.inl hd)
  unfold runSizeCheck
  split
  · have hp : Progresses s { s with row := 0 } := .of_scratch rfl rfl
    exact ⟨_, rfl, (hp.goto .filter).decodes hi hd rfl rfl (hi.sound hd) nofun nofun fun _ => ⟨‹_›, hh⟩⟩
  · exact raise_answers hi hd (.self s ⟨nofun, nofun⟩)

/-- Every byte of a row of the filter pass lies in memory (R42 duty 1, R127). -/
theorem Inv.row_inside {s : State} (hi : Inv s) (hst : s.st = .filter) :
    filteredAddress s s.row.toNat s.lat.stride.toNat ≤ memBytes
      ∧ outAddress s s.row.toNat s.lat.stride.toNat ≤ memBytes := by
  have hd := decoding_of_st hst rfl
  obtain ⟨-, -, -, -, -, hwork, hout⟩ := hi.sized (.inl hd)
  obtain ⟨-, hw, ho⟩ := hi.placed hd
  have hrow : s.row.toNat + 1 ≤ s.lat.h.toNat := hi.rowInside hst
  have h1 := Nat.mul_le_mul_right (1 + s.lat.stride.toNat) hrow
  have h2 := Nat.mul_le_mul_right s.lat.stride.toNat hrow
  rw [Nat.add_mul, Nat.one_mul] at h1 h2
  unfold filteredAddress outAddress
  rw [Nat.add_comm s.lat.stride.toNat 1]
  omega

/-- The end of a row (R128): the next row, or DONE with the work buffer read to its end. -/
theorem rowEnd_inv {s : State} (hi : Inv s) (hst : s.st = .filter) : Inv (rowEnd s) := by
  have hd := decoding_of_st hst rfl
  have hrow := hi.rowInside hst
  have hnext : (s.row + 1).toNat = s.row.toNat + 1 := by
    have := s.lat.h.isLt
    rw [BitVec.toNat_add]; simp; omega
  unfold rowEnd
  dsimp only
  split
  · exact
      { hi with
        noErrorKept := fun _ => hi.noErrorKept (by rw [hst]; nofun)
        errorKept := nofun
        codePhase := nofun
        matchPhase := nofun
        idleCursor := nofun
        countsZero := nofun
        sizesZero := nofun
        latched := nofun
        sized := fun _ => hi.sized (.inl hd)
        placed := nofun
        room := nofun
        full := fun _ => hi.full (.inl hst)
        cursor := nofun
        aligned := nofun
        lengthCounts := nofun
        codeTable := nofun
        bodyTables := nofun
        matchLength := nofun
        lent := nofun
        rowInside := nofun }
  · rename_i hne
    have hlt : (s.row + 1).toNat < s.lat.h.toNat :=
      lt_of_le_of_ne (by omega) fun h => hne (BitVec.eq_of_toNat_eq h)
    exact { hi with rowInside := fun _ => hlt }

theorem filterRow_answers {s : State} (hi : Inv s) (hst : s.st = .filter) (ft : Byte) (pred : Predictor) :
    Answers s (filterRow ft pred s) := by
  obtain ⟨hx, ho⟩ := hi.row_inside hst
  refine Run.All.answers hi (decoding_of_st hst rfl) (Run.All.bind
    ((filterColumns_all pred s.lat.stride.toNat (s := { s with ft := ft, col := 0 })
      (by simp) hx ho).imp id (fun _ _ h => h) fun _ _ h => h.elim) ?_)
  rintro - u ⟨hu, hwf⟩
  have hiu : Inv u := by rw [hu]; exact { hi with memory := hwf hi.memory }
  have hstu : u.st = .filter := by rw [hu]; exact hst
  refine ⟨rowEnd_inv hiu hstu, ?_⟩
  have hk : Keeps s u := by rw [hu]; exact ⟨rfl, rfl, rfl, rfl, hwf⟩
  refine hk.trans ?_
  unfold rowEnd
  dsimp only
  split <;> exact ⟨rfl, rfl, rfl, rfl, id⟩

theorem exec_filterType_answers {i : Instr} {s : State} (hi : Inv s) (hst : s.st = .filter)
    (hf : formatOf i = .filterType) : Answers s (exec i s) := by
  rcases exec_filterType hf with ⟨ft, pred, he⟩ | ⟨ft, he⟩
  · rw [he]
    exact filterRow_answers hi hst ft pred
  · rw [he]
    exact raise_answers hi (decoding_of_st hst rfl) ⟨⟨nofun, nofun⟩, ⟨rfl, rfl, rfl, rfl, id⟩, rfl⟩

end Sys2Proof.Machine
end

section
/-! PROOFS. The whole machine: every step keeps the invariant, and while BUSY = 1 the configuration (10_state, 46_control
R138). -/

namespace Sys2Proof.Machine

/-! ### CONFIG_CHECK -/

theorem maxWorkBytes_lt : Config.maxWorkBytes < 2 ^ 32 := by
  unfold Config.maxWorkBytes
  have := Config.maxWorkSetting.isLt
  omega

/-- The regions that meet duty 1 lie in memory (R42). -/
theorem placed_of_regionsFit {s : State} (h : regionsFit s = true) : s.placed := by
  unfold regionsFit at h
  simp only [Bool.and_eq_true, Region.fits_iff] at h
  obtain ⟨⟨⟨htable, hwork⟩, hout⟩, -⟩ := h
  exact ⟨htable, hwork, hout⟩

/-- The sizes of a work buffer below 2^32 are exact (R140). -/
theorem sized_latchSizes {s : State} {bpp : Nat} (hbpp : bpp = 3 ∨ bpp = 4) (hlat : s.lat.bpp = BitVec.ofNat 3 bpp)
    (hw : s.lat.w ≠ 0) (hh : s.lat.h ≠ 0) (hfit : workBytes s.lat.w.toNat s.lat.h.toNat bpp < 2 ^ 32) :
    (latchSizes bpp s).sized := by
  have pos {v : Word} (hv : v ≠ 0) : 0 < v.toNat := Nat.pos_of_ne_zero fun h => hv (BitVec.eq_of_toNat_eq h)
  have hb : s.lat.bpp.toNat = bpp := by rw [hlat]; rcases hbpp with rfl | rfl <;> rfl
  unfold workBytes at hfit
  have hrow : 1 + s.lat.w.toNat * bpp ≤ s.lat.h.toNat * (1 + s.lat.w.toNat * bpp) := Nat.le_mul_of_pos_left _ (pos hh)
  have hout : s.lat.h.toNat * (s.lat.w.toNat * bpp) ≤ s.lat.h.toNat * (1 + s.lat.w.toNat * bpp) :=
    Nat.mul_le_mul_left _ (by omega)
  have hstride : (latchSizes bpp s).lat.stride.toNat = s.lat.w.toNat * bpp := Nat.mod_eq_of_lt (by omega)
  refine ⟨?_, hlat.symm, pos hw, pos hh, ?_, ?_, ?_⟩
  · show s.lat.bpp = 3 ∨ s.lat.bpp = 4
    rw [hlat]
    rcases hbpp with rfl | rfl
    · exact .inl rfl
    · exact .inr rfl
  · show _ = s.lat.w.toNat * s.lat.bpp.toNat
    rw [hstride, hb]
  · rw [hstride]
    exact Nat.mod_eq_of_lt hfit
  · rw [hstride]
    exact Nat.mod_eq_of_lt (by omega)

/-- The first state of a decode (R140), from a CONFIG_CHECK that has latched registers and sizes. -/
theorem Inv.startsDecode {s t : State} (hi : Inv s) (hst : s.st = .configCheck) (hp : t.phase = .boundary)
    (hz : t.st = .zlibHeader)
    (hframe : t = { s with st := t.st, phase := t.phase, cur := t.cur, lat := t.lat, sizes := t.sizes })
    (hbit : t.cur.bit = 0) (hl : t.latched) (hs : t.sized) (hpl : t.placed) : Inv t := by
  have hne {st : EngineState} (h : t.st = st) (h' : st ≠ .zlibHeader) : False := h' (h ▸ hz)
  have hnp {p : Phase} (h : t.phase = p) (h' : p ≠ .boundary) : False := h' (h ▸ hp)
  obtain ⟨hout, -⟩ := hi.countsZero (.inr hst)
  refine
    { memory := ?_
      reservedZero := ?_
      noErrorKept := fun _ => ?_
      errorKept := fun h => (hne h nofun).elim
      codePhase := fun h => (hnp h nofun).elim
      matchPhase := fun h => (hnp h nofun).elim
      idleCursor := fun h => (hne h nofun).elim
      countsZero := fun h => h.elim (fun h => (hne h nofun).elim) fun h => (hne h nofun).elim
      sizesZero := fun h => h.elim (fun h => (hne h nofun).elim) fun h => (hne h nofun).elim
      latched := fun _ => hl
      sized := fun _ => hs
      placed := fun _ => hpl
      room := fun _ => ?_
      full := fun h => h.elim (fun h => (hne h nofun).elim) fun h => (hne h nofun).elim
      cursor := fun _ => Cursor.sound_of_bit hbit
      aligned := fun _ => hbit
      lengthArray := ?_
      lengthCounts := fun h => (hnp h nofun).elim
      codeTable := fun h => (hnp h nofun).elim
      bodyTables := fun h => (hne h nofun).elim
      matchLength := fun h => (hnp h nofun).elim
      lent := fun _ => ?_
      rowInside := fun h => (hne h nofun).elim }
  · rw [hframe]; exact hi.memory
  · rw [hframe]; exact hi.reservedZero
  · rw [hframe]; exact hi.noErrorKept (by rw [hst]; nofun)
  · rw [show t.outCount = s.outCount by rw [hframe], hout]; exact Nat.zero_le _
  · rw [hframe]; exact hi.lengthArray
  · rw [show t.loan = s.loan by rw [hframe]]; exact hi.lent (by rw [State.busy, hst]; rfl)

/-- CONFIG_CHECK keeps the invariant and the registers, whatever the bound (R140). -/
theorem configCheckWith_keeps {maxWork : Nat} {s t : State} (hmax : maxWork < 2 ^ 32) (hi : Inv s)
    (hst : s.st = .configCheck) (h : (configCheckWith maxWork s).finish = .next t) : Inv t ∧ t.cfg = s.cfg := by
  have hb : s.busy = true := by rw [State.busy, hst]; rfl
  rcases (configCheckWith_all maxWork s).finish h with
    ⟨bpp, hbpp, -, hw, hh, -, hfit, hbit, u, rfl, hregions, ht⟩ | ⟨e, v, ⟨he, l, rfl⟩, rfl⟩
  · refine ⟨hi.startsDecode hst (by rw [ht]; rfl) (by rw [ht]; rfl) (by rw [ht]; rfl) hbit ?_ ?_ ?_, by rw [ht]; rfl⟩
    · rw [ht]
      exact ⟨rfl, rfl, rfl, rfl, rfl, rfl⟩
    · rw [ht]
      exact sized_latchSizes (s := { latchConfig s with lat := { (latchConfig s).lat with bpp := BitVec.ofNat 3 bpp } })
        hbpp rfl hw hh (hfit.trans_lt hmax)
    · rw [ht]
      exact placed_of_regionsFit hregions
  · refine ⟨inv_enterError ?_ hi.memory hi.reservedZero hi.lengthArray hb, rfl⟩
    rcases he with rfl | rfl <;> exact ⟨nofun, nofun⟩

/-! ### A step of the engine -/

/-- What the engine's step does: it keeps the invariant and the registers, and past CONFIG_CHECK latches and sizes. -/
structure EngineStep (s t : State) : Prop where
  inv : Inv t
  cfg : t.cfg = s.cfg
  keeps : s.decoding = true → Keeps s t

theorem Decodes.engineStep {s t : State} (h : Decodes s t) : EngineStep s t := ⟨h.inv, h.keeps.cfg, fun _ => h.keeps⟩

theorem EngineStep.waits {s : State} (hi : Inv s) : EngineStep s s := ⟨hi, rfl, fun _ => .refl s⟩

/-- An element's step, by what holds after the fetch and where it raises. -/
theorem Run.All.element_decodes {s t : State} {stops : Prop} {x : Run Nat} {f : Format} (hi : Inv s)
    (hd : s.decoding = true)
    (hx : x.All stops (fun _ u => Keeps s u ∧ ∀ i, formatOf i = f → Answers u (exec i u)) (RaisesFrom s))
    (h : (x.element f).outcome = .next t) : Decodes s t := by
  rcases hx.element_next h with ⟨v, u, i, ⟨hk, ha⟩, hf, he⟩ | ⟨e, u, hr, rfl⟩
  · have := (ha i hf).decodes he
    exact ⟨this.inv, hk.trans this.keeps⟩
  · exact hr.decodes hi (busy_of_decoding hd)

/-- A symbol fetched through a Huffman table and executed (R93). -/
theorem huffman_decodes {s t : State} {k : TableShape} {table : HuffTable k} {f : Format} (hi : Inv s)
    (hd : s.decoding = true) (hz : s.st ≠ .zlibHeader)
    (he : ∀ u, MovesCursor s u → Inv u → ∀ i, formatOf i = f → Answers u (exec i u))
    (h : ((huffDecode table s).element f).outcome = .next t) : Decodes s t := by
  refine Run.All.element_decodes hi hd ((huffDecode_all table s).imp id ?_ raisesFrom_huffman) h
  rintro - u ⟨hm, hc⟩
  exact ⟨hm.progresses.toKeeps, he u hm (hi.moved hd hm hc fun h => absurd h hz)⟩

/-- The engine's turn at a boundary, state by state (R71, R98). -/
theorem engineTurn_step {s t : State} (hi : Inv s) (hp : s.phase = .boundary) (h : (engineTurn s).outcome = .next t) :
    EngineStep s t := by
  unfold engineTurn at h
  match hst : s.st with
  | .idle | .done | .error =>
    rw [hst] at h
    cases h
    exact .waits hi
  | .configCheck =>
    rw [hst] at h
    obtain ⟨ht, hc⟩ := configCheckWith_keeps maxWorkBytes_lt hi hst h
    exact ⟨ht, hc, fun hd => by rw [State.decoding, hst] at hd; cases hd⟩
  | .zlibHeader =>
    rw [hst] at h
    have hd := decoding_of_st hst rfl
    refine (Run.All.element_decodes hi hd (Run.All.bind
      ((readByte_all s).imp id (fun _ _ h => h) raisesFrom_truncated) ?_) h).engineStep
    rintro b u ⟨hm, hb⟩
    have hbit := hb.trans (hi.aligned hst)
    have hu := hi.moved hd hm (Cursor.sound_of_bit hbit) fun _ => hbit
    exact ⟨hm.progresses.toKeeps, fun i hf => exec_zlibCmf_answers hu (by rw [hm]; exact hst) hf⟩
  | .blockHeader =>
    rw [hst] at h
    have hd := decoding_of_st hst rfl
    refine (Run.All.element_decodes hi hd ((readBlockHeader_all s).imp id ?_ ?_) h).engineStep
    · rintro v u ⟨hu, -, hc⟩
      have hiu := hi.fetched hd hu (hc (hi.sound hd)) (by rw [hst]; nofun)
      exact ⟨by rw [hu]; exact ⟨rfl, rfl, rfl, rfl, id⟩,
        fun i hf => exec_blockHeader_answers hiu (by rw [hu]; exact hst) hf⟩
    · rintro e u ⟨rfl, hu⟩
      exact ⟨⟨nofun, nofun⟩, by rw [hu]; exact ⟨rfl, rfl, rfl, rfl, id⟩, by rw [hu]⟩
  | .storedBlock => rw [hst] at h; exact ((runStoredBlock_answers hi hst).decodes h).engineStep
  | .fixedTables => rw [hst] at h; exact ((runFixedTables_answers hi hst).decodes h).engineStep
  | .dynamicTables => rw [hst] at h; exact ((runDynHeader_answers hi hst hp).decodes h).engineStep
  | .blockBody =>
    rw [hst] at h
    exact (huffman_decodes hi (decoding_of_st hst rfl) (by rw [hst]; nofun)
      (fun u hm hu i hf => exec_litlenSymbol_answers hu (by rw [hm]; exact hst) (by rw [hm]; exact hp) hf) h).engineStep
  | .trailer => rw [hst] at h; exact ((runTrailer_answers hi hst).decodes h).engineStep
  | .sizeCheck => rw [hst] at h; exact ((runSizeCheck_answers hi hst).decodes h).engineStep
  | .filter =>
    rw [hst] at h
    have hd := decoding_of_st hst rfl
    refine (Run.All.element_decodes hi hd (Run.All.bind
      ((memRead_all (filterTypeAddress s) s).imp id (fun _ _ h => h) fun _ _ h => h.elim) ?_) h).engineStep
    rintro b u ⟨rfl, -⟩
    exact ⟨.refl u, fun i hf => exec_filterType_answers hi hst hf⟩

/-- Between two elements of an operation and at its boundary alike. -/
theorem engine_step {s t : State} (hi : Inv s) (hm : s.phase = .boundary → engineMoves s) (h : step s = .next t) :
    EngineStep s t := by
  rw [step_eq] at h
  match hp : s.phase with
  | .clSymbols =>
    have hst := hi.codePhase hp
    rw [turn_clSymbols hp] at h
    split at h
    · exact ((runDynFinish_answers hi hp).decodes h).engineStep
    · rename_i hc
      refine (huffman_decodes hi (decoding_of_st hst rfl) (by rw [hst]; nofun) (fun u hm hu i hf => ?_) h).engineStep
      exact exec_clSymbol_answers hu (by rw [hm]; exact hp) (by rw [hm]; exact Bool.eq_false_of_not_eq_true hc) hf
  | .distSymbol =>
    have hst := hi.matchPhase hp
    rw [turn_distSymbol hp] at h
    refine (huffman_decodes hi (decoding_of_st hst rfl) (by rw [hst]; nofun) (fun u hm hu i hf => ?_) h).engineStep
    exact exec_distSymbol_answers hu (by rw [hm]; exact hp) hf
  | .boundary =>
    rw [turn_engine (hm hp)] at h
    have htick : Inv (tickHost s) := by rw [tickHost_eq]; exact { hi with }
    obtain ⟨hinv, hcfg, hkeeps⟩ := engineTurn_step htick (by simpa using hp) h
    refine ⟨hinv, by simpa using hcfg, fun hd => ?_⟩
    have hk := hkeeps (by simpa [State.decoding] using hd)
    rw [tickHost_eq] at hk
    exact ⟨hk.cfg, hk.lat, hk.sizes, hk.lens, hk.memory⟩

/-! ### A move of the host -/

theorem HostMove.inv {s t : State} (h : HostMove s t) (hi : Inv s) : Inv t := by
  have hlatched : s.decoding = true → t.cfg = s.cfg := fun hd => (h.held (busy_of_decoding hd)).1
  have hlent : s.busy = true → t.loan = s.loan := fun hb => (h.held hb).2
  rw [h.frame]
  exact
    { hi with
      memory := h.memory hi.memory
      reservedZero := h.fmt1 hi.reservedZero
      latched := fun hd => by unfold State.latched; rw [hlatched hd]; exact hi.latched hd
      lent := fun hb => by rw [hlent hb]; exact hi.lent hb }

/-- The accepted START (R139). -/
theorem acceptStart_inv {s : State} (hi : Inv s) : Inv (acceptStart s) where
  memory := hi.memory
  reservedZero := hi.reservedZero
  noErrorKept := fun _ => ⟨rfl, rfl⟩
  errorKept := nofun
  codePhase := nofun
  matchPhase := nofun
  idleCursor := nofun
  countsZero := fun _ => ⟨rfl, rfl⟩
  sizesZero := fun _ => rfl
  latched := nofun
  sized := nofun
  placed := nofun
  room := nofun
  full := nofun
  cursor := nofun
  aligned := nofun
  lengthArray := hi.lengthArray
  lengthCounts := nofun
  codeTable := nofun
  bodyTables := nofun
  matchLength := nofun
  lent := fun _ => Option.some_ne_none _
  rowInside := nofun

/-- The reset state with any memory in canonical form, and the host's own fields (R38, R154). -/
theorem inv_of_reset {m : Memory} (hm : m.wf) (d : Nat) (r : Word) (q : List HostEntry) (j : HostJob) :
    Inv { State.reset with mem := m, draws := d, busRdata := r, hostQueue := q, job := j } where
  memory := hm
  reservedZero := (by decide : (0#32).toNat < 512)
  noErrorKept := fun _ => ⟨rfl, rfl⟩
  errorKept := nofun
  codePhase := nofun
  matchPhase := nofun
  idleCursor := fun _ => rfl
  countsZero := fun _ => ⟨rfl, rfl⟩
  sizesZero := fun _ => rfl
  latched := nofun
  sized := nofun
  placed := nofun
  room := nofun
  full := nofun
  cursor := nofun
  aligned := nofun
  lengthArray := List.length_replicate
  lengthCounts := nofun
  codeTable := nofun
  bodyTables := nofun
  matchLength := nofun
  lent := nofun
  rowInside := nofun

/-- SOFT_RESET (R141). -/
theorem resetBlock_inv {s : State} (hi : Inv s) : Inv (resetBlock s) := by
  refine inv_of_reset ?_ _ _ _ _
  split
  · exact cloudBuffers_wf hi.memory
  · exact hi.memory

theorem HostEffect.inv {s t : State} (h : HostEffect s t) (hi : Inv s) : Inv t := by
  cases h with
  | move h => exact h.inv hi
  | start h hb => exact acceptStart_inv (h.inv hi)
  | reset hw hv => exact resetBlock_inv ((HostMove.popHost s).inv hi)

/-- Every step is the engine's or the host's. -/
theorem step_cases {s t : State} (hi : Inv s) (h : step s = .next t) : EngineStep s t ∨ HostEffect s t := by
  rcases turn_cases s with hp | hp | he | ⟨a, ha⟩
  · exact .inl (engine_step hi (by rw [hp]; nofun) h)
  · exact .inl (engine_step hi (by rw [hp]; nofun) h)
  · exact .inl (engine_step hi (fun _ => he) h)
  · exact .inr (hostMoves_effect ha h)

/-- Settles O8: an engine step past CONFIG_CHECK or in it, a host move, a START and a reset each keep the invariant. -/
theorem stepKeepsInv : Obligations.StepKeepsInv := by
  intro s t hi h
  rcases step_cases hi h with he | he
  · exact he.inv
  · exact he.inv hi

/-- Settles O12: the engine keeps the registers and past CONFIG_CHECK latches and sizes, and a host move that is no reset keeps
the registers while BUSY = 1. -/
theorem configHeldWhileBusy : Obligations.ConfigHeldWhileBusy := by
  intro s t hi hb h
  rcases step_cases hi h with he | he
  · exact .inl ⟨he.cfg, fun hd => ⟨(he.keeps hd).lat, (he.keeps hd).sizes⟩⟩
  · cases he with
    | move hm =>
      refine .inl ⟨(hm.held hb).1, fun _ => ?_⟩
      rw [hm.frame]
      exact ⟨rfl, rfl⟩
    | start _ hidle => rw [hb] at hidle; cases hidle
    | reset hw hv => exact .inr ⟨rfl, _, hw, hv⟩

/-- Settles O7: reset is the reset state with an empty memory. -/
theorem invHoldsAtReset : Obligations.InvHoldsAtReset := inv_of_reset reset_memory_wf _ _ _ _

end Sys2Proof.Machine
end

section
/-! PROOFS. What the host reads and writes in the register window (10_state R15 to R26). -/

namespace Sys2Proof.Machine

/-! ### Register writes -/

/-- The offset and the data of a register write in its selector (R145). -/
theorem extractLsb'_regWrite_offset (v : Word) (offset : BitVec 8) : (v ++ offset).extractLsb' 0 8 = offset := by
  ext i hi
  rw [BitVec.getElem_extractLsb', BitVec.getLsbD_append]
  simp [hi]

theorem extractLsb'_regWrite_align (v : Word) (offset : BitVec 8) :
    (v ++ offset).extractLsb' 0 2 = offset.extractLsb' 0 2 := by
  ext i hi
  rw [BitVec.getElem_extractLsb', BitVec.getElem_extractLsb', BitVec.getLsbD_append]
  simp [show i < 8 by omega]

theorem extractLsb'_regWrite_data (v : Word) (offset : BitVec 8) : (v ++ offset).extractLsb' 8 32 = v := by
  ext i hi
  rw [BitVec.getElem_extractLsb', BitVec.getLsbD_append]
  simp [hi]

/-- The register-write rows of R145: offset and instruction. -/
def configRows : List (BitVec 8 × (Word → Instr)) :=
  [ (0x08#8, .writeIhdrWidth), (0x0C#8, .writeIhdrHeight), (0x10#8, .writeIhdrFmt0), (0x14#8, .writeIhdrFmt1),
    (0x18#8, .writeSegtabBase), (0x1C#8, .writeSegCount), (0x20#8, .writeWorkBase), (0x24#8, .writeOutBase) ]

theorem configRow_offset : ∀ r ∈ configRows, r.1.toNat % 4 = 0 ∧ 0x08 ≤ r.1.toNat ∧ r.1.toNat ≤ 0x24 := by
  intro r hr
  unfold configRows at hr
  fin_cases hr <;> decide

/-- The selector of a register write decodes to the row of its offset, with the data written (R145). -/
theorem decode_regWrite {r : BitVec 8 × (Word → Instr)} (hr : r ∈ configRows) (v : Word) :
    decode .regWrite (v ++ r.1) = .ok (r.2 v) := by
  have hw : ¬ 2 ^ Format.regWrite.width ≤ (v ++ r.1).toNat := not_le.2 (v ++ r.1).isLt
  unfold decode decodeRegWrite
  simp only [if_neg hw, extractLsb'_regWrite_offset, extractLsb'_regWrite_align, extractLsb'_regWrite_data]
  unfold configRows at hr
  fin_cases hr <;> rfl

/-- A host write of a row's offset is the row's meaning (R145). -/
theorem regWriteTurn_row {v : Word} {offset : BitVec 8} {i : Instr} (s : State) (ha : offset.toNat % 4 = 0)
    (hr : 0x08 ≤ offset.toNat ∧ offset.toNat ≤ 0x24) (hd : decode .regWrite (v ++ offset) = .ok i) :
    (regWriteTurn 4 offset v s).outcome = exec i s := by
  have hctrl : offset ≠ 0x00#8 := fun h => by subst h; exact absurd hr.1 (by decide)
  unfold regWriteTurn
  rw [(wordAccess_iff 4 offset).2 ⟨rfl, ha⟩, if_neg nofun, if_neg hctrl, if_pos hr]
  exact Turn.outcome_element s hd

/-- A host write past the registers has no effect (R26). -/
theorem regWriteTurn_reserved {v : Word} {offset : BitVec 8} (s : State) (ha : offset.toNat % 4 = 0)
    (hr : 0x24 < offset.toNat) : (regWriteTurn 4 offset v s).outcome = .next s := by
  have hctrl : offset ≠ 0x00#8 := fun h => by subst h; exact absurd hr (by decide)
  unfold regWriteTurn
  rw [(wordAccess_iff 4 offset).2 ⟨rfl, ha⟩, if_neg nofun, if_neg hctrl, if_neg (by omega)]
  rfl

/-- With BUSY = 0 a row stores its data in the register of its offset (R145), which then reads it. -/
theorem exec_configRow {r : BitVec 8 × (Word → Instr)} (hr : r ∈ configRows) (v : Word) {s : State} (hb : s.busy = false) :
    ∃ t, exec (r.2 v) s = .next t
      ∧ (hostReadRegister r.1 t).busRdata.toNat = if r.1 = 0x14#8 then v.toNat % 512 else v.toNat := by
  have ready (c : ConfigRegs) : (.next (writeConfig c s) : Host.Outcome State Fault Refusal) = .next { s with cfg := c } :=
    congrArg _ (writeConfig_ready hb)
  unfold configRows at hr
  fin_cases hr
  · exact ⟨_, ready _, rfl⟩
  · exact ⟨_, ready _, rfl⟩
  · exact ⟨_, ready _, rfl⟩
  · exact ⟨_, ready _, fmt1_toNat v⟩
  · exact ⟨_, ready _, rfl⟩
  · exact ⟨_, ready _, rfl⟩
  · exact ⟨_, ready _, rfl⟩
  · exact ⟨_, ready _, rfl⟩

/-! ### Register reads -/

/-- A host read of any offset but STATUS (R15, R26). -/
theorem step_hostReads_register {s : State} {offset : BitVec 8} (h : hostReads s offset) (hs : offset ≠ 0x04#8)
    (ha : offset.toNat % 4 = 0) : step s = .next (hostReadRegister offset (popHost s)) := by
  rw [step_hostReads h]
  unfold regReadTurn
  rw [(wordAccess_iff 4 offset).2 ⟨rfl, ha⟩, if_neg nofun, if_neg hs]
  rfl

/-- Every offset past BLOCK_COUNT is reserved (R26). -/
theorem hostReadRegister_reserved (offset : BitVec 8) (s : State) (h : 0x4C ≤ offset.toNat) :
    hostReadRegister offset s = { s with busRdata := 0 } := by
  unfold hostReadRegister
  split
  case h_20 => rfl
  all_goals omega

theorem progressRead_specified {s : State} (v : Word) (h : s.progressUnspecified = false) :
    progressRead v s = { s with busRdata := v } := by
  unfold progressRead
  rw [h, if_neg nofun]

theorem progressRead_unspecified {s : State} (v : Word) (h : s.progressUnspecified = true) :
    progressRead v s = { s with busRdata := Config.freeWord s.draws, draws := s.draws + 1 } := by
  unfold progressRead
  rw [h, if_pos rfl]

/-- The six progress registers (R24): each reads its value by `progressRead`, and that value is 0 in IDLE. -/
theorem hostReadRegister_progress {s : State} {offset : BitVec 8}
    (ho : offset ∈ [0x34#8, 0x38#8, 0x3C#8, 0x40#8, 0x44#8, 0x48#8]) :
    ∃ v, hostReadRegister offset s = progressRead v s ∧ (Inv s → s.st = .idle → v = 0) := by
  have hcur (hi : Inv s) (hst : s.st = .idle) := hi.idleCursor hst
  fin_cases ho
  · exact ⟨s.outCount, rfl, fun hi hst => (hi.countsZero (.inl hst)).1⟩
  · exact ⟨s.cur.seg, rfl, fun hi hst => by rw [hcur hi hst]⟩
  · exact ⟨s.cur.addr, rfl, fun hi hst => by rw [hcur hi hst]⟩
  · exact ⟨s.cur.rem, rfl, fun hi hst => by rw [hcur hi hst]⟩
  · exact ⟨s.cur.bit.setWidth 32, rfl, fun hi hst => by rw [hcur hi hst]; rfl⟩
  · exact ⟨s.blockCount, rfl, fun hi hst => (hi.countsZero (.inl hst)).2⟩

/-! ### The statements about the window -/

/-- Settles O52: a row's write stores its data in its register, and a read answers one field and keeps the others. -/
theorem registersReadBack : Obligations.RegistersReadBack := by
  refine ⟨fun s offset v ho hw hb => ?_, fun s => ⟨fun h => ?_, fun h => ?_, fun h => ?_⟩, fun s offset h hs ha => ?_⟩
  · obtain ⟨r, hr, rfl⟩ : ∃ r ∈ configRows, r.1 = offset := List.mem_map.1 ho
    obtain ⟨ha, hrange⟩ := configRow_offset r hr
    rw [step_hostWrites hw, regWriteTurn_row (popHost s) ha hrange (decode_regWrite hr v)]
    exact exec_configRow hr v hb
  · exact ⟨_, step_hostReads_register h (by decide) (by decide), BitVec.toNat_setWidth_of_le (by decide)⟩
  · exact step_hostReads_register h (by decide) (by decide)
  · exact step_hostReads_register h (by decide) (by decide)
  · exact ⟨step_hostReads_register h hs ha, hostReadRegister_frame (popHost s) hs⟩

/-- Settles O13: reset leaves 0 behind every offset. -/
theorem resetReadsZero : Obligations.ResetReadsZero := by
  refine ⟨rfl, rfl, rfl, fun offset => ?_⟩
  unfold hostReadRegister
  split <;> rfl

/-- A number below 2^k with `n` bits put after it is below 2^(k + n). -/
theorem append_lt {m n k : Nat} {x : BitVec m} (y : BitVec n) (h : x.toNat < 2 ^ k) : (x ++ y).toNat < 2 ^ (k + n) := by
  rw [BitVec.toNat_append]
  refine Nat.or_lt_two_pow ?_ (y.isLt.trans_le (Nat.pow_le_pow_right (by decide) (Nat.le_add_left n k)))
  rw [Nat.shiftLeft_eq, pow_add]
  exact Nat.mul_lt_mul_of_pos_right h (Nat.two_pow_pos n)

/-- Bits 31:17 of STATUS are 0 (R17). -/
theorem statusWord_lt (s : State) : s.statusWord.toNat < 2 ^ 17 :=
  append_lt _ (append_lt _ (append_lt _ (append_lt _ (append_lt _ (append_lt _ (append_lt _ (append_lt (k := 0) _
    (by decide : (0#15).toNat < 2 ^ 0))))))))

/-- Settles O53: a reserved offset has no register to read or row to write, and the reserved bits of a word are written as 0. -/
theorem reservedReadsAndWrites : Obligations.ReservedReadsAndWrites := by
  refine ⟨fun s offset h => ?_, fun s offset v hr ha hw => ?_, fun s => ?_, fun s => ⟨?_, statusWord_lt s⟩, fun s h => h,
    fun s => ?_, fun s hb he => ?_, fun a b r q s => ⟨rfl, rfl, rfl⟩, fun d e s h => ?_⟩
  · rw [hostReadRegister_reserved offset s h]
  · rw [step_hostWrites hw]
    exact regWriteTurn_reserved (popHost s) ha (by omega)
  · show s.ctrlWord = _
    unfold State.ctrlWord
    cases s.irqEn <;> rfl
  · show s.statusWord.getLsbD 3 = false
    unfold State.statusWord
    rw [BitVec.getLsbD_append, BitVec.getLsbD_append, BitVec.getLsbD_append, BitVec.getLsbD_append]
    rfl
  · show (s.sizes.outChannels.setWidth 32).toNat < 8
    rw [BitVec.toNat_setWidth_of_le (by decide)]
    exact s.sizes.outChannels.isLt
  · show (progressRead (s.cur.bit.setWidth 32) s).busRdata.toNat < 8
    rw [progressRead_specified _ (by rw [State.progressUnspecified, hb, he]; rfl)]
    show (s.cur.bit.setWidth 32).toNat < 8
    rw [BitVec.toNat_setWidth_of_le (by decide)]
    exact s.cur.bit.isLt
  · have hmask : d &&& 0x1FF#32 = e &&& 0x1FF#32 := BitVec.eq_of_toNat_eq (by rw [fmt1_toNat, fmt1_toNat, h])
    show execWriteIhdrFmt1 d s = execWriteIhdrFmt1 e s
    unfold execWriteIhdrFmt1
    rw [hmask]

/-- Settles O54: the invariant gives the zeros of IDLE and the full OUT_COUNT of DONE, `progressRead` the free values. -/
theorem progressReads : Obligations.ProgressReads := by
  intro s offset ho hi
  obtain ⟨v, hv, hzero⟩ := hostReadRegister_progress (s := s) ho
  refine ⟨fun hst => ?_, fun hst => ?_, fun hbe => ?_⟩
  · rw [hv, hzero hi hst]
    exact progressRead_specified 0 (by rw [State.progressUnspecified, State.busy, State.isError, hst]; rfl)
  · have hspec : s.progressUnspecified = false := by
      rw [State.progressUnspecified, State.busy, State.isError, hst]; rfl
    have hbit : s.cur.bit.setWidth 32 = BitVec.ofNat 32 s.cur.bit.toNat := by
      apply BitVec.eq_of_toNat_eq
      simp
    have hfull := hi.full (.inr hst)
    refine ⟨hfull, ?_, ?_, ?_, ?_, ?_, ?_⟩
    · rintro rfl
      rw [← hfull]
      exact progressRead_specified s.outCount hspec
    · rintro rfl
      exact progressRead_specified s.cur.seg hspec
    · rintro rfl
      exact progressRead_specified s.cur.addr hspec
    · rintro rfl
      exact progressRead_specified s.cur.rem hspec
    · rintro rfl
      rw [← hbit]
      exact progressRead_specified (s.cur.bit.setWidth 32) hspec
    · rintro rfl
      exact progressRead_specified s.blockCount hspec
  · rw [hv]
    refine progressRead_unspecified v ?_
    rcases hbe with hb | hst
    · rw [State.progressUnspecified, hb]; rfl
    · rw [State.progressUnspecified, State.isError, hst]; simp

end Sys2Proof.Machine
end

section
/-! PROOFS. The engine's frame: a step of the engine writes inside the work and output buffers of its decode (20_memory R40,
R53). -/

namespace Sys2Proof.Machine

/-! ### What an operation leaves unchanged -/

/-- What the frame speaks of: a state with the same view has the same buffers, OUT_COUNT, bytes and IRQ_EN. -/
def State.bufferView (s : State) : Bool × Latches × SizeRegs × Word × Memory :=
  (s.irqEn, s.lat, s.sizes, s.outCount, s.mem)

/-- OUT_COUNT is within WORK_SIZE (R30), so that `emit` writes inside the work buffer. -/
def State.roomLeft (s : State) : Prop := s.outCount.toNat ≤ s.sizes.workSize.toNat

/-- From `s` to `t` IRQ_EN is kept, and every byte outside the two buffers of `s` (R40, R53). -/
structure BufferFrame (s t : State) : Prop where
  irqEn : t.irqEn = s.irqEn
  other : ∀ a, ¬ inWork s a → ¬ inOut s a → t.mem.read a = s.mem.read a

/-- A running operation has come from `s` to `t`: the buffers are the same, and where OUT_COUNT was within WORK_SIZE it still
is, with only bytes of the buffers written. -/
structure StaysInBuffers (s t : State) : Prop where
  irqEn : t.irqEn = s.irqEn
  lat : t.lat = s.lat
  sizes : t.sizes = s.sizes
  writes : s.roomLeft → t.roomLeft ∧ ∀ a, ¬ inWork s a → ¬ inOut s a → t.mem.read a = s.mem.read a

theorem BufferFrame.refl (s : State) : BufferFrame s s := ⟨rfl, fun _ _ _ => rfl⟩

theorem StaysInBuffers.frame {s t : State} (h : StaysInBuffers s t) (hr : s.roomLeft) : BufferFrame s t :=
  ⟨h.irqEn, (h.writes hr).2⟩

/-- A frame after a stretch with the same buffers. -/
theorem StaysInBuffers.trans_frame {s t u : State} (h : StaysInBuffers s t) (hr : s.roomLeft) (h' : BufferFrame t u) :
    BufferFrame s u := by
  refine ⟨h'.irqEn.trans h.irqEn, fun a hw ho => ?_⟩
  rw [h'.other a (by unfold inWork; rw [h.lat, h.sizes]; exact hw) (by unfold inOut; rw [h.lat, h.sizes]; exact ho)]
  exact (h.writes hr).2 a hw ho

theorem StaysInBuffers.trans {s t u : State} (h : StaysInBuffers s t) (h' : StaysInBuffers t u) : StaysInBuffers s u :=
  ⟨h'.irqEn.trans h.irqEn, h'.lat.trans h.lat, h'.sizes.trans h.sizes, fun hr =>
    have hrt := (h.writes hr).1
    ⟨(h'.writes hrt).1, (h.trans_frame hr (h'.frame hrt)).other⟩⟩

/-- A move inside the engine's scratch writes no byte. -/
theorem StaysInBuffers.of_view {s t : State} (h : t.bufferView = s.bufferView) : StaysInBuffers s t := by
  simp only [State.bufferView, Prod.mk.injEq] at h
  obtain ⟨hirq, hlat, hsizes, hout, hmem⟩ := h
  refine ⟨hirq, hlat, hsizes, fun hr => ⟨?_, fun _ _ _ => by rw [hmem]⟩⟩
  unfold State.roomLeft
  rw [hout, hsizes]
  exact hr

theorem MovesCursor.staysInBuffers {s t : State} (h : MovesCursor s t) : StaysInBuffers s t :=
  .of_view (by rw [h]; rfl)

/-- Filling the buffers with free bytes changes no other byte (R147). -/
theorem read_cloudBuffers_outside {s : State} {a : Nat} (hw : ¬ inWork s a) (ho : ¬ inOut s a) :
    s.cloudBuffers.read a = s.mem.read a := by
  unfold State.cloudBuffers
  rw [Memory.read_fillFree, if_neg fun h => ho ⟨h.1, h.2.1⟩, Memory.read_fillFree, if_neg fun h => hw ⟨h.1, h.2.1⟩]

theorem enterError_frame (e : ErrorCode) (s : State) : BufferFrame s (enterError e s) :=
  ⟨rfl, fun _ hw ho => read_cloudBuffers_outside hw ho⟩

/-! ### Running operations and their outcomes -/

/-- Where the operation runs through and where it raises, only bytes of the buffers of `s` have been written. -/
def Run.InBuffers {α : Type} (s : State) (x : Run α) : Prop :=
  x.All True (fun _ t => StaysInBuffers s t) fun _ t => StaysInBuffers s t

/-- A next state of the outcome keeps what the frame of `s` says, if `s` has its OUT_COUNT within WORK_SIZE. -/
def OutcomeInBuffers (s : State) (o : Host.Outcome State Fault Refusal) : Prop :=
  ∀ t, s.roomLeft → o = .next t → BufferFrame s t

/-- An operation that goes on after a stretch with the same buffers. -/
theorem Run.InBuffers.after {α : Type} {s u : State} {x : Run α} (hx : x.InBuffers u) (h : StaysInBuffers s u) :
    x.InBuffers s := hx.imp id (fun _ _ hu => h.trans hu) fun _ _ hu => h.trans hu

theorem Run.InBuffers.bind {α β : Type} {s : State} {x : Run α} {k : α → State → Run β} (hx : x.InBuffers s)
    (hk : ∀ a u, (k a u).InBuffers u) : (x.bind k).InBuffers s :=
  Run.All.bind hx fun a u hu => (hk a u).after hu

/-- An operation that goes on from a state of the same view. -/
theorem Run.InBuffers.of_view {α : Type} {s u : State} {x : Run α} (hx : x.InBuffers u)
    (h : u.bufferView = s.bufferView) : x.InBuffers s := hx.after (.of_view h)

/-- An operation's end in a state of the same view. -/
theorem Run.InBuffers.ok {α : Type} {s t : State} (a : α) (h : t.bufferView = s.bufferView) :
    (Run.ok a t).InBuffers s := StaysInBuffers.of_view h

theorem Run.InBuffers.raise {α : Type} {s t : State} (e : ErrorCode) (h : t.bufferView = s.bufferView) :
    (Run.raise e t : Run α).InBuffers s := StaysInBuffers.of_view h

theorem Run.InBuffers.finish {s : State} {x : Run Unit} (hx : x.InBuffers s) : OutcomeInBuffers s x.finish := by
  intro t hr h
  rcases Run.All.finish hx h with ht | ⟨e, u, hu, rfl⟩
  · exact ht.frame hr
  · exact hu.trans_frame hr (enterError_frame e u)

theorem OutcomeInBuffers.next {s t : State} (h : t.bufferView = s.bufferView) : OutcomeInBuffers s (.next t) := by
  rintro _ hr ⟨⟩
  exact (StaysInBuffers.of_view h).frame hr

/-- An element's step: the fetch, then the meaning of a row of its format. -/
theorem Run.All.element_inBuffers {s : State} {x : Run Nat} {f : Format}
    (hx : x.All True (fun _ u => StaysInBuffers s u ∧ ∀ i, formatOf i = f → OutcomeInBuffers u (exec i u))
      fun _ u => StaysInBuffers s u) : OutcomeInBuffers s (x.element f).outcome := by
  intro t hr h
  rcases hx.element_next h with ⟨v, u, i, ⟨hu, he⟩, hf, hi⟩ | ⟨e, u, hu, rfl⟩
  · exact hu.trans_frame hr (he i hf t (hu.writes hr).1 hi)
  · exact hu.trans_frame hr (enterError_frame e u)

/-- The same where the rows of the format keep the frame from every state. -/
theorem Run.InBuffers.element {s : State} {x : Run Nat} {f : Format} (hx : x.InBuffers s)
    (he : ∀ u i, formatOf i = f → OutcomeInBuffers u (exec i u)) : OutcomeInBuffers s (x.element f).outcome :=
  Run.All.element_inBuffers (hx.imp id (fun _ u hu => ⟨hu, he u⟩) fun _ _ hu => hu)

/-! ### The reader, the Huffman unit and `emit` -/

theorem readBits_inBuffers (n : Nat) (s : State) : (readBits n s).InBuffers s :=
  (readBits_all n s).imp (fun _ => trivial) (fun _ _ h => h.1.staysInBuffers) fun _ _ h => h.2.staysInBuffers

theorem readByte_inBuffers (s : State) : (readByte s).InBuffers s :=
  (readByte_all s).imp (fun _ => trivial) (fun _ _ h => h.1.staysInBuffers) fun _ _ h => h.2.staysInBuffers

theorem readBytes_inBuffers (n : Nat) (s : State) : (readBytes n s).InBuffers s :=
  (readBytes_all n s).imp (fun _ => trivial) (fun _ _ h => h.1.staysInBuffers) fun _ _ h => h.2.staysInBuffers

theorem readBlockHeader_inBuffers (s : State) : (readBlockHeader s).InBuffers s :=
  (readBlockHeader_all s).imp (fun _ => trivial) (fun _ _ h => .of_view (by rw [h.1]; rfl))
    fun _ _ h => .of_view (by rw [h.2]; rfl)

theorem huffDecode_inBuffers {k : TableShape} (table : HuffTable k) (s : State) : (huffDecode table s).InBuffers s :=
  (huffDecode_all table s).imp (fun _ => trivial) (fun _ _ h => h.1.staysInBuffers) fun _ _ h => h.2.staysInBuffers

theorem memRead_inBuffers (a : Nat) (s : State) : (memRead a s).InBuffers s :=
  (memRead_all a s).imp (fun _ => trivial) (fun _ _ h => .of_view (by rw [h.1])) fun _ _ h => h.elim

theorem alignToByte_view (s : State) : (alignToByte s).bufferView = s.bufferView := by
  rw [(alignToByte_moves s).1]
  rfl

theorem toNat_succ_le (v : Word) : (v + 1).toNat ≤ v.toNat + 1 := by
  rw [BitVec.toNat_add]
  exact Nat.mod_le _ _

/-- `emit` writes the work buffer's byte number OUT_COUNT, or nothing (R117). -/
theorem emit_inBuffers (b : Byte) (s : State) : (emit b s).InBuffers s := by
  refine (emit_all b s).imp (fun _ => trivial) ?_ ?_
  · rintro - t ⟨hne, -, rfl⟩
    refine ⟨rfl, rfl, rfl, fun hr => ?_⟩
    have hlt : s.outCount.toNat < s.sizes.workSize.toNat :=
      lt_of_le_of_ne hr fun h => hne (BitVec.eq_of_toNat_eq h)
    refine ⟨(toNat_succ_le s.outCount).trans hlt, fun a hw _ => Memory.read_write_other _ _ fun ha => hw ?_⟩
    rw [ha]
    exact ⟨by omega, by omega⟩
  · rintro e t ⟨-, -, rfl⟩
    exact .of_view rfl

/-! ### The operations up to the block body -/

theorem exec_zlibCmf_inBuffers {i : Instr} (s : State) (hf : formatOf i = .zlibCmf) : OutcomeInBuffers s (exec i s) := by
  rcases exec_zlibCmf hf with ⟨cinfo, rfl⟩ | hbad
  · exact Run.InBuffers.finish ((readByte_inBuffers s).bind fun _ u => .ok _ rfl)
  · rw [hbad]
    exact Run.InBuffers.finish (.raise _ rfl)

theorem exec_blockHeader_inBuffers {i : Instr} (s : State) (hf : formatOf i = .blockHeader) :
    OutcomeInBuffers s (exec i s) := by
  match i, hf with
  | .blockStored _, _ => exact .next rfl
  | .blockFixed _, _ => exact .next rfl
  | .blockDynamic _, _ => exact .next rfl
  | .blockReserved f, _ => exact (Run.InBuffers.raise (s := s) (t := latchBlock f 3 s) _ rfl).finish

theorem copyStored_inBuffers (n : Nat) (s : State) : (copyStored n s).InBuffers s := by
  induction n generalizing s with
  | zero => exact .ok _ rfl
  | succ n ih =>
    exact (readByte_inBuffers s).bind fun b u => (emit_inBuffers b u).bind fun _ v => (ih _).of_view rfl

theorem runStoredBlock_inBuffers (s : State) : OutcomeInBuffers s (runStoredBlock s) := by
  have header : (storedHeader s).InBuffers s := by
    refine Run.InBuffers.of_view ((readByte_inBuffers _).bind fun b0 u => ?_) (alignToByte_view s)
    exact (readByte_inBuffers u).bind fun b1 v => (readBytes_inBuffers 2 v).bind fun nlen w => .ok _ rfl
  exact Run.InBuffers.finish (header.bind fun _ u => copyStored_inBuffers _ u)

theorem enterBody_inBuffers (litlen dist : List Nat) (s : State) :
    OutcomeInBuffers s (.next (goto .blockBody (buildTables litlen dist s))) := .next rfl

theorem runFixedTables_inBuffers (s : State) : OutcomeInBuffers s (runFixedTables s) :=
  enterBody_inBuffers _ _ s

theorem runDynFinish_inBuffers (s : State) : OutcomeInBuffers s (runDynFinish s) :=
  enterBody_inBuffers _ _ s

theorem dynCounts_inBuffers (s : State) : (dynCounts s).InBuffers s := by
  refine (readBits_inBuffers 5 s).bind fun hl u => ?_
  refine Run.InBuffers.of_view ((readBits_inBuffers 5 _).bind fun hd v => ?_) rfl
  exact Run.InBuffers.of_view ((readBits_inBuffers 4 _).bind fun hc w => .ok _ rfl) rfl

theorem readClLengths_inBuffers (ps cl : List Nat) (s : State) : (readClLengths ps cl s).InBuffers s := by
  induction ps generalizing cl s with
  | nil => exact .ok _ rfl
  | cons p ps ih => exact (readBits_inBuffers 3 s).bind fun v u => ih _ u

theorem dynClTable_inBuffers (s : State) : (dynClTable s).InBuffers s :=
  (readClLengths_inBuffers _ _ s).bind fun _ _ => .ok _ rfl

theorem runDynHeader_inBuffers (s : State) : OutcomeInBuffers s (runDynHeader s) :=
  Run.InBuffers.finish ((dynCounts_inBuffers s).bind fun _ u => (dynClTable_inBuffers u).bind fun _ _ => .ok _ rfl)

theorem repeat_inBuffers (v : BitVec 4) (k base : Nat) (s : State) :
    ((readBits k s).bind fun e u => appendLengths v (base + e) u).InBuffers s := by
  refine (readBits_inBuffers k s).bind fun e u => (appendLengths_all v (base + e) u).imp False.elim ?_ ?_
  · rintro - t ⟨-, rfl⟩
    exact .of_view rfl
  · rintro - t ⟨-, rfl⟩
    exact .of_view rfl

theorem exec_clSymbol_inBuffers {i : Instr} (s : State) (hf : formatOf i = .clSymbol) :
    OutcomeInBuffers s (exec i s) := by
  match i, hf with
  | .cl _, _ => exact .next rfl
  | .cl16, _ =>
    refine Run.InBuffers.finish ?_
    split
    · exact .raise _ rfl
    · exact repeat_inBuffers _ 2 3 s
  | .cl17, _ => exact (repeat_inBuffers 0 3 3 s).finish
  | .cl18, _ => exact (repeat_inBuffers 0 7 11 s).finish

/-! ### The block body -/

theorem copyMatch_inBuffers (n : Nat) (s : State) : (copyMatch n s).InBuffers s := by
  induction n generalizing s with
  | zero => exact .ok _ rfl
  | succ n ih => exact (memRead_inBuffers _ s).bind fun b u => (emit_inBuffers b u).bind fun _ v => ih v

theorem lengthSymbol_inBuffers (base ext : Nat) (s : State) : OutcomeInBuffers s (lengthSymbol base ext s) :=
  Run.InBuffers.finish ((readBits_inBuffers ext s).bind fun _ _ => .ok _ rfl)

theorem distanceSymbol_inBuffers (base ext : Nat) (s : State) : OutcomeInBuffers s (distanceSymbol base ext s) := by
  refine Run.InBuffers.finish ((readBits_inBuffers ext s).bind fun e u => ?_)
  dsimp only
  split
  · exact .raise _ rfl
  · exact Run.InBuffers.of_view ((copyMatch_inBuffers _ _).bind fun _ v => .ok _ rfl) rfl

theorem exec_litlenSymbol_inBuffers {i : Instr} (s : State) (hf : formatOf i = .litlenSymbol) :
    OutcomeInBuffers s (exec i s) := by
  rcases litlenSymbol_cases hf with ⟨byte, rfl⟩ | rfl | ⟨r, hr, rfl⟩ | ⟨low, rfl⟩
  · exact (emit_inBuffers byte s).finish
  · exact .next rfl
  · rw [exec_lengthRow hr]
    exact lengthSymbol_inBuffers _ _ s
  · exact Run.InBuffers.finish (.raise _ rfl)

theorem exec_distSymbol_inBuffers {i : Instr} (s : State) (hf : formatOf i = .distSymbol) :
    OutcomeInBuffers s (exec i s) := by
  rcases distSymbol_cases hf with ⟨r, hr, rfl⟩ | ⟨low, rfl⟩
  · rw [exec_distanceRow hr]
    exact distanceSymbol_inBuffers _ _ s
  · exact Run.InBuffers.finish (.raise _ rfl)

/-! ### The end of the stream and the filter pass -/

theorem runTrailer_inBuffers (s : State) : OutcomeInBuffers s (runTrailer s) :=
  Run.InBuffers.finish (.of_view ((readBytes_inBuffers 4 _).bind fun _ _ => .ok _ rfl) (alignToByte_view s))

theorem runSizeCheck_inBuffers (s : State) : OutcomeInBuffers s (runSizeCheck s) := by
  refine Run.InBuffers.finish ?_
  split
  · exact .ok _ rfl
  · exact .raise _ rfl

/-- The columns of a row whose output lies in the output buffer (R128). -/
theorem filterColumns_inBuffers (pred : Predictor) (n : Nat) {s : State}
    (hn : s.col.toNat + n ≤ s.lat.stride.toNat)
    (hx : filteredAddress s s.row.toNat s.lat.stride.toNat ≤ memBytes)
    (ho : outAddress s s.row.toNat s.lat.stride.toNat ≤ memBytes)
    (hout : outAddress s s.row.toNat s.lat.stride.toNat ≤ s.lat.obase.toNat + s.sizes.outSize.toNat) :
    (filterColumns pred n s).InBuffers s := by
  induction n generalizing s with
  | zero => exact .ok _ rfl
  | succ n ih =>
    have hcol : (s.col + 1).toNat + n ≤ s.lat.stride.toNat := by
      have := toNat_succ_le s.col
      omega
    have hin : inOut s (outAddress s s.row.toNat s.col.toNat) := by
      unfold inOut outAddress at *
      omega
    unfold filterColumns
    rw [filterByte_ok pred s (by unfold filteredAddress at *; omega) (by unfold outAddress at *; omega), Run.bind_ok]
    have hbyte (b : Byte) : StaysInBuffers s
        { s with mem := s.mem.write (outAddress s s.row.toNat s.col.toNat) b, col := s.col + 1 } :=
      ⟨rfl, rfl, rfl, fun hr => ⟨hr, fun a _ ha => Memory.read_write_other _ _ fun h => ha (h ▸ hin)⟩⟩
    exact (ih (s := { s with mem := _, col := s.col + 1 }) hcol hx ho hout).after (hbyte _)

/-- The output row ROW ends inside the output buffer (R127, R140). -/
theorem Inv.row_in_output {s : State} (hi : Inv s) (hst : s.st = .filter) :
    outAddress s s.row.toNat s.lat.stride.toNat ≤ s.lat.obase.toNat + s.sizes.outSize.toNat := by
  obtain ⟨-, -, -, -, -, -, hsize⟩ := hi.sized (.inl (decoding_of_st hst rfl))
  have hlt : s.row.toNat + 1 ≤ s.lat.h.toNat := hi.rowInside hst
  have hrow := Nat.mul_le_mul_right s.lat.stride.toNat hlt
  rw [Nat.add_mul, Nat.one_mul] at hrow
  unfold outAddress
  omega

theorem rowEnd_view (s : State) : (rowEnd s).bufferView = s.bufferView := by
  unfold rowEnd
  dsimp only
  split <;> rfl

theorem exec_filterType_inBuffers {i : Instr} {s : State} (hi : Inv s) (hst : s.st = .filter)
    (hf : formatOf i = .filterType) : OutcomeInBuffers s (exec i s) := by
  rcases exec_filterType hf with ⟨ft, pred, he⟩ | ⟨ft, he⟩
  · obtain ⟨hx, ho⟩ := hi.row_inside hst
    rw [he]
    have hcols := filterColumns_inBuffers pred s.lat.stride.toNat (s := { s with ft := ft, col := 0 })
      (Nat.zero_add _).le hx ho (hi.row_in_output hst)
    exact Run.InBuffers.finish (.of_view (hcols.bind fun _ u => .ok _ (rowEnd_view u)) rfl)
  · rw [he]
    exact Run.InBuffers.finish (.raise _ rfl)

/-! ### A step of the engine -/

theorem not_inWork_of_sizes_zero {s : State} {a : Nat} (h : s.sizes = ⟨0, 0, 0⟩) : ¬ inWork s a := by
  unfold inWork
  rw [h]
  exact fun hw => absurd hw.2 (not_lt.2 hw.1)

theorem not_inOut_of_sizes_zero {s : State} {a : Nat} (h : s.sizes = ⟨0, 0, 0⟩) : ¬ inOut s a := by
  unfold inOut
  rw [h]
  exact fun ho => absurd ho.2 (not_lt.2 ho.1)

/-- CONFIG_CHECK writes no byte: where it raises, the sizes are still 0 (R140, R22). -/
theorem runConfigCheck_frame {s t : State} (hi : Inv s) (hst : s.st = .configCheck) (h : runConfigCheck s = .next t) :
    BufferFrame s t := by
  rcases (configCheckWith_all Config.maxWorkBytes s).finish h with
    ⟨bpp, -, -, -, -, -, -, -, u, rfl, -, ht⟩ | ⟨e, v, ⟨-, l, rfl⟩, rfl⟩
  · rw [ht]
    exact ⟨rfl, fun _ _ _ => rfl⟩
  · have hsizes : s.sizes = ⟨0, 0, 0⟩ := hi.sizesZero (.inr hst)
    exact ⟨rfl, fun a _ _ =>
      read_cloudBuffers_outside (not_inWork_of_sizes_zero hsizes) (not_inOut_of_sizes_zero hsizes)⟩

/-- The engine's turn at a boundary, state by state (R71, R98). -/
theorem engineTurn_frame {s t : State} (hi : Inv s) (h : (engineTurn s).outcome = .next t) : BufferFrame s t := by
  have decode {o : Host.Outcome State Fault Refusal} {st : EngineState} (hst : s.st = st) (hd : decodingState st = true)
      (hs : OutcomeInBuffers s o) (ho : o = .next t) : BufferFrame s t :=
    hs t (hi.room (decoding_of_st hst hd)) ho
  unfold engineTurn at h
  match hst : s.st with
  | .idle | .done | .error => rw [hst] at h; cases h; exact .refl s
  | .configCheck => rw [hst] at h; exact runConfigCheck_frame hi hst h
  | .zlibHeader =>
    rw [hst] at h
    exact decode hst rfl (Run.InBuffers.element ((readByte_inBuffers s).bind fun _ u => .ok _ rfl)
      fun u i => exec_zlibCmf_inBuffers u) h
  | .blockHeader =>
    rw [hst] at h
    exact decode hst rfl ((readBlockHeader_inBuffers s).element fun u i => exec_blockHeader_inBuffers u) h
  | .storedBlock => rw [hst] at h; exact decode hst rfl (runStoredBlock_inBuffers s) h
  | .fixedTables => rw [hst] at h; exact decode hst rfl (runFixedTables_inBuffers s) h
  | .dynamicTables => rw [hst] at h; exact decode hst rfl (runDynHeader_inBuffers s) h
  | .blockBody =>
    rw [hst] at h
    exact decode hst rfl ((huffDecode_inBuffers s.ll s).element fun u i => exec_litlenSymbol_inBuffers u) h
  | .trailer => rw [hst] at h; exact decode hst rfl (runTrailer_inBuffers s) h
  | .sizeCheck => rw [hst] at h; exact decode hst rfl (runSizeCheck_inBuffers s) h
  | .filter =>
    rw [hst] at h
    refine decode hst rfl (Run.All.element_inBuffers (Run.All.bind
      ((memRead_all (filterTypeAddress s) s).imp (fun _ => trivial) (fun _ _ h => h) fun _ _ h => h.elim) ?_)) h
    rintro b u ⟨rfl, -⟩
    exact ⟨.of_view rfl, fun i => exec_filterType_inBuffers hi hst⟩

/-- Between two elements of an operation and at its boundary alike. -/
theorem engine_frame {s t : State} (hi : Inv s) (hm : s.phase = .boundary → engineMoves s) (h : step s = .next t) :
    BufferFrame s t := by
  rw [step_eq] at h
  match hp : s.phase with
  | .clSymbols =>
    have hr : s.roomLeft := hi.room (decoding_of_st (hi.codePhase hp) rfl)
    rw [turn_clSymbols hp] at h
    split at h
    · exact runDynFinish_inBuffers s t hr h
    · exact (huffDecode_inBuffers s.clt s).element (fun u i => exec_clSymbol_inBuffers u) t hr h
  | .distSymbol =>
    rw [turn_distSymbol hp] at h
    exact (huffDecode_inBuffers s.dt s).element (fun u i => exec_distSymbol_inBuffers u) t
      (hi.room (decoding_of_st (hi.matchPhase hp) rfl)) h
  | .boundary =>
    rw [turn_engine (hm hp), tickHost_eq] at h
    obtain ⟨hirq, hother⟩ := engineTurn_frame (s := { s with hostQueue := (tickHost s).hostQueue }) { hi with } h
    exact ⟨hirq, hother⟩

/-- Settles O11: every operation of the engine writes through `emit`, the filter's columns or error entry, and each of the
three stays inside the two buffers. -/
theorem engineWritesOnlyItsBuffers : Obligations.EngineWritesOnlyItsBuffers := by
  intro s t hi hm h
  obtain ⟨hirq, hother⟩ := engine_frame hi hm h
  exact ⟨hother, (engine_step hi hm h).cfg, hirq⟩

end Sys2Proof.Machine
end

section
/-! PROOFS. Which selectors have an instruction (30_encoding R61 to R72, 20_memory R46). -/

namespace Sys2Proof.Machine

/-- A selector has an instruction in a format's decoder. -/
def Decodable (x : Except DecodeError Instr) : Prop := ∃ i, x = .ok i

theorem decodable_ok (i : Instr) : Decodable (.ok i) := ⟨i, rfl⟩

theorem not_decodable_error (e : DecodeError) : ¬ Decodable (.error e) := by
  rintro ⟨i, h⟩
  cases h

/-! ### Fields of a selector -/

/-- One bit of a selector, as a test of its number. -/
theorem extractLsb'_bit_eq_zero (w : BitVec 40) (k : Nat) : w.extractLsb' k 1 = 0#1 ↔ w.toNat / 2 ^ k % 2 = 0 := by
  rw [← BitVec.toNat_inj, BitVec.extractLsb'_toNat, Nat.shiftRight_eq_div_pow]
  rfl

theorem extractLsb'_bit_eq_one (w : BitVec 40) (k : Nat) : w.extractLsb' k 1 = 1#1 ↔ w.toNat / 2 ^ k % 2 = 1 := by
  rw [← BitVec.toNat_inj, BitVec.extractLsb'_toNat, Nat.shiftRight_eq_div_pow]
  rfl

/-- The low byte of a selector: the register offset (R144, R145). -/
theorem extractLsb'_offset_eq (w : BitVec 40) (o : BitVec 8) : w.extractLsb' 0 8 = o ↔ w.toNat % 256 = o.toNat := by
  rw [← BitVec.toNat_inj, BitVec.extractLsb'_toNat]
  rfl

theorem extractLsb'_aligned (w : BitVec 40) : w.extractLsb' 0 2 = 0#2 ↔ w.toNat % 4 = 0 := by
  rw [← BitVec.toNat_inj, BitVec.extractLsb'_toNat]
  rfl

/-! ### The formats in which every selector has a row -/

theorem decodeZlibCmf_decodable (w : BitVec 40) : Decodable (decodeZlibCmf w) := by
  unfold decodeZlibCmf
  dsimp only
  split_ifs <;> exact decodable_ok _

theorem decodeBlockHeader_decodable (w : BitVec 40) : Decodable (decodeBlockHeader w) := by
  unfold decodeBlockHeader
  dsimp only
  split_ifs <;> exact decodable_ok _

theorem decodeCtrlWrite_decodable (w : BitVec 40) : Decodable (decodeCtrlWrite w) := by
  unfold decodeCtrlWrite
  dsimp only
  split_ifs <;> exact decodable_ok _

theorem decodePngChunkType_decodable (w : BitVec 40) : Decodable (decodePngChunkType w) := by
  unfold decodePngChunkType
  dsimp only
  split_ifs <;> exact decodable_ok _

theorem decodeDistSymbol_decodable {w : BitVec 40} (h : w.toNat < 32) : Decodable (decodeDistSymbol w) := by
  unfold decodeDistSymbol
  split
  case h_33 => simp only [imp_false] at *; omega
  all_goals exact decodable_ok _

theorem decodeFilterType_decodable {w : BitVec 40} (h : w.toNat < 256) : Decodable (decodeFilterType w) := by
  unfold decodeFilterType
  simp only [extractLsb'_bit_eq_one, Nat.reducePow]
  split_ifs
  case neg =>
    split
    case h_9 => simp only [imp_false] at *; omega
    all_goals exact decodable_ok _
  all_goals exact decodable_ok _

/-! ### The formats in which some selectors have none -/

/-- Code-length symbols 19 to 31 have no row (R61, log 25). -/
theorem decodeClSymbol_decodable_iff {w : BitVec 40} (h : w.toNat < 32) :
    Decodable (decodeClSymbol w) ↔ w.toNat < 19 := by
  unfold decodeClSymbol
  simp only [extractLsb'_bit_eq_zero, Nat.reducePow]
  split
  · exact iff_of_true (decodable_ok _) (by omega)
  split
  case h_4 => exact iff_of_false (not_decodable_error _) (by simp only [imp_false] at *; omega)
  all_goals exact iff_of_true (decodable_ok _) (by omega)

/-- Literal/length symbols 288 to 511 have no row (R62, log 25). -/
theorem decodeLitlenSymbol_decodable_iff {w : BitVec 40} (h : w.toNat < 512) :
    Decodable (decodeLitlenSymbol w) ↔ w.toNat < 288 := by
  unfold decodeLitlenSymbol
  simp only [extractLsb'_bit_eq_zero, Nat.reducePow]
  split
  · exact iff_of_true (decodable_ok _) (by omega)
  split
  case h_33 => exact iff_of_false (not_decodable_error _) (by simp only [imp_false] at *; omega)
  all_goals exact iff_of_true (decodable_ok _) (by omega)

/-- STATUS is the one register-read row (R144). -/
theorem decodeRegRead_decodable_iff {w : BitVec 40} (h : w.toNat < 256) :
    Decodable (decodeRegRead w) ↔ w.toNat = 0x04 := by
  unfold decodeRegRead
  simp only [ne_eq, extractLsb'_aligned, extractLsb'_offset_eq, Nat.mod_eq_of_lt h]
  split_ifs with ha ho
  · exact iff_of_true (decodable_ok _) ho
  · exact iff_of_false (not_decodable_error _) ho
  · exact iff_of_false (not_decodable_error _) fun h4 => ha (by rw [h4])

/-- The eight configuration registers are the register-write rows (R145). -/
theorem decodeRegWrite_decodable_iff (w : BitVec 40) :
    Decodable (decodeRegWrite w) ↔ w.toNat % 256 ∈ [0x08, 0x0C, 0x10, 0x14, 0x18, 0x1C, 0x20, 0x24] := by
  unfold decodeRegWrite
  simp only [ne_eq, extractLsb'_aligned, extractLsb'_offset_eq, List.mem_cons, List.not_mem_nil, or_false,
    BitVec.toNat_ofNat, Nat.reducePow, Nat.reduceMod]
  split_ifs
  case neg => exact iff_of_false (not_decodable_error _) (by omega)
  case neg => exact iff_of_false (not_decodable_error _) (by omega)
  all_goals exact iff_of_true (decodable_ok _) (by omega)

/-- Settles O4: in six formats every selector of the width has a row, in the other four exactly the listed ones. -/
theorem decodeTotal : Obligations.DecodeTotal := by
  intro f w
  unfold decode
  by_cases hw : 2 ^ f.width ≤ w.toNat
  · rw [if_pos hw]
    exact iff_of_false (not_decodable_error _) fun h => absurd h.1 (not_lt.2 hw)
  rw [if_neg hw]
  have hlt := not_le.1 hw
  cases f with
  | zlibCmf => exact iff_of_true (decodeZlibCmf_decodable w) ⟨hlt, nofun, nofun, nofun, nofun⟩
  | blockHeader => exact iff_of_true (decodeBlockHeader_decodable w) ⟨hlt, nofun, nofun, nofun, nofun⟩
  | clSymbol =>
    exact (decodeClSymbol_decodable_iff hlt).trans ⟨fun h => ⟨hlt, fun _ => h, nofun, nofun, nofun⟩, fun ⟨_, h, _⟩ => h rfl⟩
  | litlenSymbol =>
    exact (decodeLitlenSymbol_decodable_iff hlt).trans
      ⟨fun h => ⟨hlt, nofun, fun _ => h, nofun, nofun⟩, fun ⟨_, _, h, _⟩ => h rfl⟩
  | distSymbol => exact iff_of_true (decodeDistSymbol_decodable hlt) ⟨hlt, nofun, nofun, nofun, nofun⟩
  | filterType => exact iff_of_true (decodeFilterType_decodable hlt) ⟨hlt, nofun, nofun, nofun, nofun⟩
  | ctrlWrite => exact iff_of_true (decodeCtrlWrite_decodable w) ⟨hlt, nofun, nofun, nofun, nofun⟩
  | regRead =>
    exact (decodeRegRead_decodable_iff hlt).trans
      ⟨fun h => ⟨hlt, nofun, nofun, fun _ => h, nofun⟩, fun ⟨_, _, _, h, _⟩ => h rfl⟩
  | regWrite =>
    exact (decodeRegWrite_decodable_iff w).trans
      ⟨fun h => ⟨hlt, nofun, nofun, nofun, fun _ => h⟩, fun ⟨_, _, _, _, h⟩ => h rfl⟩
  | pngChunkType => exact iff_of_true (decodePngChunkType_decodable w) ⟨hlt, nofun, nofun, nofun, nofun⟩

end Sys2Proof.Machine
end

section
/-! PROOFS. What the region tests say: host duties 1 and 2 as tests of the regions, and duty 3 byte by byte (20_memory R40 to
R42). -/

namespace Sys2Proof.Machine

/-! ### The regions of a decode, byte by byte -/

theorem workRegion_holds (s : State) (a : Nat) : (workRegion s).holds a = true ↔ inWork s a := Region.holds_iff _ a

theorem outRegion_holds (s : State) (a : Nat) : (outRegion s).holds a = true ↔ inOut s a := Region.holds_iff _ a

theorem tableRegion_holds (s : State) (a : Nat) :
    (tableRegion s.lat.segtab.toNat s.lat.nseg.toNat).holds a = true ↔ inTable s a := Region.holds_iff _ a

/-- A byte of the segments is a byte of one of them (R41). -/
theorem segmentRegion_holds (s : State) (a : Nat) :
    (∃ k, k < s.lat.nseg.toNat ∧ (segmentRegion s.mem s.lat.segtab.toNat k).holds a = true) ↔ inSegments s a :=
  exists_congr fun _ => and_congr_right fun _ => Region.holds_iff _ a

/-- A region that is one byte overlaps the regions that hold it. -/
theorem Region.overlaps_byte (a : Nat) (q : Region) : (⟨a, 1⟩ : Region).overlaps q = q.holds a := by
  rw [Bool.eq_iff_iff, Region.holds_iff]
  simp only [Region.overlaps, Bool.and_eq_true, decide_eq_true_eq]
  omega

/-- Neither buffer overlaps a region exactly when none of its bytes lies in a buffer. -/
theorem clearOf_iff (work out r : Region) :
    clearOf work out r = true ↔ ∀ a, work.holds a = true ∨ out.holds a = true → ¬ r.holds a = true := by
  simp only [clearOf, Bool.and_eq_true, Bool.not_eq_true', Region.overlaps_eq_false, not_and, or_imp, forall_and]

/-! ### Duties 1 and 2 -/

theorem regionsFit_iff (s : State) : regionsFit s = true ↔
    s.lat.segtab.toNat + 8 * s.lat.nseg.toNat ≤ memBytes
      ∧ s.lat.wbase.toNat + s.sizes.workSize.toNat ≤ memBytes
      ∧ s.lat.obase.toNat + s.sizes.outSize.toNat ≤ memBytes
      ∧ ∀ k, k < s.lat.nseg.toNat →
          (s.mem.readLe32 (s.lat.segtab.toNat + 8 * k)).toNat + segmentLength s k ≤ memBytes := by
  simp only [regionsFit, Bool.and_eq_true, Region.fits_iff, allSegments_iff, and_assoc]
  rfl

theorem buffersDisjoint_iff (s : State) : buffersDisjoint s = true ↔
    (∀ a, ¬ (inWork s a ∧ inOut s a)) ∧ ∀ a, inWork s a ∨ inOut s a → ¬ inTable s a ∧ ¬ inSegments s a := by
  have hapart : (!(workRegion s).overlaps (outRegion s)) = true ↔ ∀ a, ¬ (inWork s a ∧ inOut s a) := by
    simp only [Bool.not_eq_true', Region.overlaps_eq_false, workRegion_holds, outRegion_holds]
  have hsegments : (∀ k, k < s.lat.nseg.toNat → ∀ a, inWork s a ∨ inOut s a →
        ¬ (segmentRegion s.mem s.lat.segtab.toNat k).holds a = true)
      ↔ ∀ a, inWork s a ∨ inOut s a → ¬ inSegments s a := by
    simp only [← segmentRegion_holds, not_exists, not_and]
    exact ⟨fun h a ha k hk => h k hk a ha, fun h k hk a ha => h a ha k hk⟩
  unfold buffersDisjoint
  simp only [Bool.and_eq_true, hapart, allSegments_iff, clearOf_iff, workRegion_holds, outRegion_holds,
    tableRegion_holds, hsegments, and_assoc, imp_and, forall_and]

/-! ### Duty 3 -/

/-- Past CONFIG_CHECK the buffers that are the engine's are those of the latches and sizes (R40). -/
theorem lentBuffers_byte_iff {s : State} (hst : s.st ≠ .configCheck) (a : Nat) :
    (∀ q ∈ lentBuffers s, q.holds a = false) ↔ ¬ inWork s a ∧ ¬ inOut s a := by
  have hbuffers : lentBuffers s = [workRegion s, outRegion s] := if_neg hst
  rw [hbuffers, ← workRegion_holds, ← outRegion_holds]
  simp

/-- Past CONFIG_CHECK the input that is the engine's is the latched segment table and its segments (R40, R41). -/
theorem lentInput_byte_iff {s : State} (hst : s.st ≠ .configCheck) (a : Nat) :
    (∀ q ∈ lentInput s, q.holds a = false) ↔ ¬ inTable s a ∧ ¬ inSegments s a := by
  have htable : lentTable s = (s.lat.segtab.toNat, s.lat.nseg.toNat) := if_neg hst
  rw [forall_mem_lentInput, htable, ← tableRegion_holds, ← segmentRegion_holds]
  simp

theorem mayRead_byte_iff {s : State} (hst : s.st ≠ .configCheck) (a : Nat) :
    mayRead s ⟨a, 1⟩ = true ↔
      ∀ e, s.loan = some e → ¬ inWork s a ∧ ¬ inOut s a ∧ ∀ q ∈ e.buffers, q.holds a = false := by
  rw [mayRead_iff]
  refine forall_congr' fun e => imp_congr_right fun _ => ?_
  simp only [withLent_buffers, Region.overlaps_byte, List.forall_mem_append, lentBuffers_byte_iff hst, and_assoc]

theorem mayWrite_byte_iff {s : State} (hst : s.st ≠ .configCheck) (a : Nat) :
    mayWrite s ⟨a, 1⟩ = true ↔ ∀ e, s.loan = some e →
      ¬ inWork s a ∧ ¬ inOut s a ∧ ¬ inTable s a ∧ ¬ inSegments s a ∧ ∀ q ∈ e.buffers ++ e.input, q.holds a = false := by
  rw [mayWrite_iff]
  refine forall_congr' fun e => imp_congr_right fun _ => ?_
  simp only [withLent_buffers, withLent_input, Region.overlaps_byte, List.forall_mem_append, lentBuffers_byte_iff hst,
    lentInput_byte_iff hst]
  tauto

/-! ### The host's accesses -/

theorem step_memRead {s : State} {a : Word} (h : hostMoves s (.memRead a)) : step s = hostMemRead a (popHost s) := by
  rw [step_eq, turn_host h]
  rfl

theorem step_memWrite {s : State} {a : Word} {b : Byte} (h : hostMoves s (.memWrite a b)) :
    step s = hostMemWrite a b (popHost s) := by
  rw [step_eq, turn_host h]
  rfl

/-! ### START gives no region back -/

/-- What the engine holds after an accepted START contains what it held before (log 11). -/
theorem acceptStart_mayRead {s : State} {r : Region} (h : mayRead s r = false) : mayRead (acceptStart s) r = false := by
  rw [← Bool.not_eq_true, mayRead_iff] at h ⊢
  refine fun ht => h fun e he q hq => ?_
  exact ht _ (acceptStart_keeps he) q (List.mem_append_right _ hq)

theorem acceptStart_mayWrite {s : State} {r : Region} (h : mayWrite s r = false) :
    mayWrite (acceptStart s) r = false := by
  rw [← Bool.not_eq_true, mayWrite_iff] at h ⊢
  refine fun ht => h fun e he => ?_
  obtain ⟨hbuffers, hinput⟩ := ht _ (acceptStart_keeps he)
  exact ⟨fun q hq => hbuffers q (List.mem_append_right _ hq), fun q hq => hinput q (List.mem_append_right _ hq)⟩

/-- Settles O56: overlap and fit are said byte by byte, the host's guards are those tests of one byte, and START keeps the
ledger. -/
theorem regionTestsMeanDuties : Obligations.RegionTestsMeanDuties := by
  refine ⟨fun s => ⟨regionsFit_iff s, buffersDisjoint_iff s⟩, fun s a hm hst => ⟨fun hok => ?_, fun e he hin => ?_⟩,
    fun s a b hm hst => ⟨fun hok => ?_, fun e he hin => ?_⟩, fun irqEn reserved s hb => ?_⟩
  · rw [step_memRead hm, hostMemRead, if_pos ((mayRead_byte_iff (s := popHost s) hst a.toNat).2 hok), BitVec.ofNat_toNat]
    rfl
  · rw [step_memRead hm, hostMemRead, if_neg fun hmay => ?_]
    obtain ⟨hwork, hout, hledger⟩ := (mayRead_byte_iff (s := popHost s) hst a.toNat).1 hmay e he
    rcases hin with h | h | ⟨q, hq, h⟩
    · exact hwork h
    · exact hout h
    · exact Bool.false_ne_true ((hledger q hq).symm.trans h)
  · rw [step_memWrite hm, hostMemWrite, if_pos ((mayWrite_byte_iff (s := popHost s) hst a.toNat).2 hok)]
    exact ⟨_, rfl, Memory.read_write_same _ _ _, fun x hx => Memory.read_write_other _ _ hx,
      fun hwf => Memory.write_wf _ hwf a.isLt⟩
  · rw [step_memWrite hm, hostMemWrite, if_neg fun hmay => ?_]
    obtain ⟨hwork, hout, htable, hsegments, hledger⟩ := (mayWrite_byte_iff (s := popHost s) hst a.toNat).1 hmay e he
    rcases hin with h | h | h | h | ⟨q, hq, h⟩
    · exact hwork h
    · exact hout h
    · exact htable h
    · exact hsegments h
    · exact Bool.false_ne_true ((hledger q hq).symm.trans h)
  · have hidle : ¬ s.busy = true := by rw [hb]; exact Bool.false_ne_true
    exact ⟨acceptStart { s with irqEn := irqEn == 1 }, congrArg _ (if_neg hidle),
      fun r => ⟨acceptStart_mayRead, acceptStart_mayWrite⟩⟩

end Sys2Proof.Machine
end

section
/-! PROOFS. Encoding and decoding are inverse (30_encoding R56 to R72), format by format. -/

namespace Sys2Proof.Machine

/-! ### The formats of at most nine bits: every operand's values are few -/

theorem decode_encode_zlibCmf {i : Instr} (hf : formatOf i = .zlibCmf) : decode .zlibCmf (encode i) = .ok i := by
  match i, hf with
  | .zhdr cinfo, _ => revert cinfo; decide
  | .zhdrBadCm0To7 cinfo cm, _ => revert cinfo cm; decide
  | .zhdrBadCm9 cinfo, _ => revert cinfo; decide
  | .zhdrBadCm10To11 cinfo low, _ => revert cinfo low; decide
  | .zhdrBadCm12To15 cinfo low, _ => revert cinfo low; decide

theorem decode_encode_blockHeader {i : Instr} (hf : formatOf i = .blockHeader) :
    decode .blockHeader (encode i) = .ok i := by
  match i, hf with
  | .blockStored bfinal, _ => revert bfinal; decide
  | .blockFixed bfinal, _ => revert bfinal; decide
  | .blockDynamic bfinal, _ => revert bfinal; decide
  | .blockReserved bfinal, _ => revert bfinal; decide

theorem decode_encode_clSymbol {i : Instr} (hf : formatOf i = .clSymbol) : decode .clSymbol (encode i) = .ok i := by
  match i, hf with
  | .cl len, _ => revert len; decide
  | .cl16, _ => rfl
  | .cl17, _ => rfl
  | .cl18, _ => rfl

theorem decode_encode_lengthRow : ∀ r ∈ lengthRows, decode .litlenSymbol (encode r.instr) = .ok r.instr := by decide

theorem decode_encode_litlenSymbol {i : Instr} (hf : formatOf i = .litlenSymbol) :
    decode .litlenSymbol (encode i) = .ok i := by
  rcases litlenSymbol_cases hf with ⟨byte, rfl⟩ | rfl | ⟨r, hr, rfl⟩ | ⟨low, rfl⟩
  · revert byte; decide
  · rfl
  · exact decode_encode_lengthRow r hr
  · revert low; decide

theorem decode_encode_distanceRow : ∀ r ∈ distanceRows, decode .distSymbol (encode r.instr) = .ok r.instr := by decide

theorem decode_encode_distSymbol {i : Instr} (hf : formatOf i = .distSymbol) : decode .distSymbol (encode i) = .ok i := by
  rcases distSymbol_cases hf with ⟨r, hr, rfl⟩ | ⟨low, rfl⟩
  · exact decode_encode_distanceRow r hr
  · revert low; decide

theorem decode_encode_filterType {i : Instr} (hf : formatOf i = .filterType) :
    decode .filterType (encode i) = .ok i := by
  match i, hf with
  | .ftNone, _ => rfl
  | .ftSub, _ => rfl
  | .ftUp, _ => rfl
  | .ftAverage, _ => rfl
  | .ftPaeth, _ => rfl
  | .ftInvalid5, _ => rfl
  | .ftInvalid6To7 low, _ => revert low; decide
  | .ftInvalid08To0F low, _ => revert low; decide
  | .ftInvalid10To1F low, _ => revert low; decide
  | .ftInvalid20To3F low, _ => revert low; decide
  | .ftInvalid40To7F low, _ => revert low; decide
  | .ftInvalid80ToFF low, _ => revert low; decide

/-! ### The host formats, by their fields -/

/-- The fields of a CTRL word written as its reserved bits, IRQ_EN and its two command bits (R16). -/
theorem ctrlWord_fields (reserved : BitVec 29) (irqEn : BitVec 1) (command : BitVec 2) :
    let v : Word := reserved ++ irqEn ++ command
    v.extractLsb' 3 29 = reserved ∧ v.extractLsb' 2 1 = irqEn ∧ v.extractLsb' 0 1 = command.extractLsb' 0 1
      ∧ v.getLsbD 1 = command.getLsbD 1 ∧ v.getLsbD 0 = command.getLsbD 0 :=
  ⟨(BitVec.extractLsb'_append_eq_of_le (by decide)).trans BitVec.extractLsb'_append_eq_left,
    (BitVec.extractLsb'_append_eq_of_le (by decide)).trans BitVec.extractLsb'_append_eq_right,
    BitVec.extractLsb'_append_eq_of_add_le (by decide), BitVec.getLsbD_append, BitVec.getLsbD_append⟩

/-- A CTRL word's instruction by its two command bits; SOFT_RESET wins (R138). -/
theorem decode_ctrlWord (reserved : BitVec 29) (irqEn : BitVec 1) (command : BitVec 2) :
    decode .ctrlWrite ((reserved ++ irqEn ++ command : Word).setWidth 40) = .ok
      (if command.getLsbD 1 then .softReset (command.extractLsb' 0 1) irqEn reserved
        else if command.getLsbD 0 then .start irqEn reserved else .setIrqEn irqEn reserved) := by
  obtain ⟨hreserved, hirq, hstart, hbit1, hbit0⟩ := ctrlWord_fields reserved irqEn command
  rw [decode_ctrlWrite, hreserved, hirq, hstart, hbit1, hbit0]

/-- A SOFT_RESET's command bits are the set bit 1 above START. -/
theorem encode_softReset (start irqEn : BitVec 1) (reserved : BitVec 29) :
    encode (.softReset start irqEn reserved) = (reserved ++ irqEn ++ (1#1 ++ start) : Word).setWidth 40 :=
  congrArg (BitVec.setWidth 40) (BitVec.append_assoc (x₁ := reserved ++ irqEn) (x₂ := 1#1) (x₃ := start))

theorem softReset_command : ∀ start : BitVec 1,
    (1#1 ++ start).getLsbD 1 = true ∧ (1#1 ++ start).extractLsb' 0 1 = start := by decide

theorem decode_encode_ctrlWrite {i : Instr} (hf : formatOf i = .ctrlWrite) : decode .ctrlWrite (encode i) = .ok i := by
  match i, hf with
  | .softReset start irqEn reserved, _ =>
    obtain ⟨hreset, hstart⟩ := softReset_command start
    rw [encode_softReset, decode_ctrlWord, if_pos hreset, hstart]
  | .start irqEn reserved, _ => exact decode_ctrlWord reserved irqEn 1#2
  | .setIrqEn irqEn reserved, _ => exact decode_ctrlWord reserved irqEn 0#2

theorem decode_encode_regRead {i : Instr} (hf : formatOf i = .regRead) : decode .regRead (encode i) = .ok i := by
  match i, hf with
  | .readStatus, _ => rfl

/-- A register write is a row of R145 with its data. -/
theorem regWrite_cases {i : Instr} (hf : formatOf i = .regWrite) : ∃ r ∈ configRows, ∃ v, i = r.2 v := by
  cases i <;> simp [formatOf, configRows] at hf ⊢

theorem encode_configRow {r : BitVec 8 × (Word → Instr)} (hr : r ∈ configRows) (v : Word) :
    encode (r.2 v) = v ++ r.1 := by
  unfold configRows at hr
  fin_cases hr <;> rfl

theorem decode_encode_regWrite {i : Instr} (hf : formatOf i = .regWrite) : decode .regWrite (encode i) = .ok i := by
  obtain ⟨r, hr, v, rfl⟩ := regWrite_cases hf
  rw [encode_configRow hr]
  exact decode_regWrite hr v

/-- The tag of a chunk in its selector decodes by the two named tags (R85 to R87). -/
theorem decode_pngChunkType (tag : Word) : decode .pngChunkType (tag.setWidth 40) = .ok
    (if tag = tagIhdr then .chunkIhdr else if tag = tagIdat then .chunkIdat else .chunkOther tag) := by
  have hw : ¬ 2 ^ Format.pngChunkType.width ≤ (tag.setWidth 40).toNat := by
    rw [BitVec.toNat_setWidth_of_le (by decide)]
    exact not_le.2 tag.isLt
  have htag : (tag.setWidth 40).extractLsb' 0 32 = tag := by
    rw [extractLsb'_setWidth tag (by decide), BitVec.extractLsb'_eq_self]
  unfold decode decodePngChunkType
  simp only [if_neg hw, htag]
  split_ifs <;> rfl

theorem decode_encode_pngChunkType {i : Instr} (hf : formatOf i = .pngChunkType) (hwf : WellFormed i = true) :
    decode .pngChunkType (encode i) = .ok i := by
  match i, hf with
  | .chunkIhdr, _ => rfl
  | .chunkIdat, _ => rfl
  | .chunkOther tag, _ =>
    obtain ⟨hihdr, hidat⟩ : tag ≠ tagIhdr ∧ tag ≠ tagIdat := by simpa [WellFormed] using hwf
    exact (decode_pngChunkType tag).trans (by rw [if_neg hihdr, if_neg hidat])

/-- Settles O1: format by format; the symbols and bytes by their operand's values, the 32-bit operands by their fields. -/
theorem decodeOfEncode : Obligations.DecodeOfEncode := by
  intro i hwf
  cases hf : formatOf i with
  | zlibCmf => exact decode_encode_zlibCmf hf
  | blockHeader => exact decode_encode_blockHeader hf
  | clSymbol => exact decode_encode_clSymbol hf
  | litlenSymbol => exact decode_encode_litlenSymbol hf
  | distSymbol => exact decode_encode_distSymbol hf
  | filterType => exact decode_encode_filterType hf
  | ctrlWrite => exact decode_encode_ctrlWrite hf
  | regRead => exact decode_encode_regRead hf
  | regWrite => exact decode_encode_regWrite hf
  | pngChunkType => exact decode_encode_pngChunkType hf hwf

end Sys2Proof.Machine
end

section
/-! PROOFS. A decoded selector encodes back to its bits (30_encoding R71, R72), format by format, as numbers. -/

namespace Sys2Proof.Machine

/-- A bit vector put above another one, as a number. -/
theorem toNat_append_eq_add {m n : Nat} (x : BitVec m) (y : BitVec n) : (x ++ y).toNat = x.toNat * 2 ^ n + y.toNat := by
  rw [BitVec.toNat_append, ← Nat.shiftLeft_add_eq_or_of_lt y.isLt, Nat.shiftLeft_eq]

/-- A field of a selector, as a number. -/
theorem toNat_field (w : BitVec 40) (k n : Nat) : (w.extractLsb' k n).toNat = w.toNat / 2 ^ k % 2 ^ n := by
  rw [BitVec.extractLsb'_toNat, Nat.shiftRight_eq_div_pow]

/-- A test of a field of a selector, as a test of its number. -/
theorem field_eq_iff (w : BitVec 40) (k n : Nat) (v : BitVec n) :
    w.extractLsb' k n = v ↔ w.toNat / 2 ^ k % 2 ^ n = v.toNat := by
  rw [← BitVec.toNat_inj, toNat_field]

/-- A selector is the 40-bit form of the fields that make up its number. -/
theorem setWidth_eq_of_toNat {n : Nat} {x : BitVec n} {w : BitVec 40} (hn : n ≤ 40) (h : x.toNat = w.toNat) :
    x.setWidth 40 = w :=
  BitVec.eq_of_toNat_eq ((BitVec.toNat_setWidth_of_le hn).trans h)

/-! ### The formats -/

theorem encode_of_decodeZlibCmf {w : BitVec 40} {i : Instr} (hw : w.toNat < 2 ^ 8) (h : decodeZlibCmf w = .ok i) :
    encode i = w := by
  unfold decodeZlibCmf at h
  simp only [field_eq_iff, BitVec.toNat_ofNat] at h
  split_ifs at h
  all_goals
    cases h
    refine setWidth_eq_of_toNat (by decide) ?_
    simp only [toNat_append_eq_add, toNat_field, BitVec.toNat_ofNat]
    omega

theorem encode_of_decodeBlockHeader {w : BitVec 40} {i : Instr} (hw : w.toNat < 2 ^ 3)
    (h : decodeBlockHeader w = .ok i) : encode i = w := by
  unfold decodeBlockHeader at h
  simp only [field_eq_iff, BitVec.toNat_ofNat] at h
  split_ifs at h
  all_goals
    cases h
    refine setWidth_eq_of_toNat (by decide) ?_
    simp only [toNat_append_eq_add, toNat_field, BitVec.toNat_ofNat]
    omega

theorem encode_of_decodeClSymbol {w : BitVec 40} {i : Instr} (hw : w.toNat < 2 ^ 5) (h : decodeClSymbol w = .ok i) :
    encode i = w := by
  unfold decodeClSymbol at h
  split at h
  next hlow =>
    rw [field_eq_iff, BitVec.toNat_ofNat] at hlow
    cases h
    exact setWidth_eq_of_toNat (by decide) (by rw [toNat_field]; omega)
  next =>
    split at h
    case h_4 => cases h
    all_goals
      rename_i hsymbol
      cases h
      exact BitVec.eq_of_toNat_eq hsymbol.symm

theorem encode_of_decodeLitlenSymbol {w : BitVec 40} {i : Instr} (hw : w.toNat < 2 ^ 9)
    (h : decodeLitlenSymbol w = .ok i) : encode i = w := by
  unfold decodeLitlenSymbol at h
  split at h
  next hlow =>
    rw [field_eq_iff, BitVec.toNat_ofNat] at hlow
    cases h
    exact setWidth_eq_of_toNat (by decide) (by rw [toNat_field]; omega)
  next =>
    split at h
    case h_33 => cases h
    all_goals
      rename_i hsymbol
      cases h
      exact BitVec.eq_of_toNat_eq hsymbol.symm

theorem encode_of_decodeDistSymbol {w : BitVec 40} {i : Instr} (h : decodeDistSymbol w = .ok i) : encode i = w := by
  unfold decodeDistSymbol at h
  split at h
  case h_33 => cases h
  all_goals
    rename_i hsymbol
    cases h
    exact BitVec.eq_of_toNat_eq hsymbol.symm

theorem encode_of_decodeFilterType {w : BitVec 40} {i : Instr} (hw : w.toNat < 2 ^ 8)
    (h : decodeFilterType w = .ok i) : encode i = w := by
  unfold decodeFilterType at h
  simp only [field_eq_iff, BitVec.toNat_ofNat] at h
  split_ifs at h
  case neg =>
    split at h
    case h_9 => cases h
    all_goals
      rename_i htype
      cases h
      exact BitVec.eq_of_toNat_eq htype.symm
  all_goals
    cases h
    refine setWidth_eq_of_toNat (by decide) ?_
    simp only [toNat_append_eq_add, toNat_field, BitVec.toNat_ofNat]
    omega

theorem encode_of_decodeCtrlWrite {w : BitVec 40} {i : Instr} (hw : w.toNat < 2 ^ 32)
    (h : decodeCtrlWrite w = .ok i) : encode i = w := by
  unfold decodeCtrlWrite at h
  simp only [field_eq_iff, BitVec.toNat_ofNat] at h
  split_ifs at h
  all_goals
    cases h
    refine setWidth_eq_of_toNat (by decide) ?_
    simp only [toNat_append_eq_add, toNat_field, BitVec.toNat_ofNat]
    omega

theorem encode_of_decodeRegRead {w : BitVec 40} {i : Instr} (hw : w.toNat < 2 ^ 8)
    (h : decodeRegRead w = .ok i) : encode i = w := by
  have hstatus := (decodeRegRead_decodable_iff hw).1 ⟨i, h⟩
  obtain rfl : w = 4#40 := BitVec.eq_of_toNat_eq hstatus
  cases h
  rfl

theorem encode_of_decodeRegWrite {w : BitVec 40} {i : Instr} (h : decodeRegWrite w = .ok i) : encode i = w := by
  unfold decodeRegWrite at h
  simp only [field_eq_iff, BitVec.toNat_ofNat] at h
  split_ifs at h
  all_goals
    cases h
    refine BitVec.eq_of_toNat_eq ((toNat_append_eq_add _ _).trans ?_)
    rw [toNat_field, BitVec.toNat_ofNat]
    omega

/-- A chunk tag comes back too, and CHUNK_OTHER holds neither of the two named tags (R87). -/
theorem encode_of_decodePngChunkType {w : BitVec 40} {i : Instr} (hw : w.toNat < 2 ^ 32)
    (h : decodePngChunkType w = .ok i) : encode i = w ∧ WellFormed i = true := by
  have htag : (w.extractLsb' 0 32).setWidth 40 = w := setWidth_eq_of_toNat (by decide) (by rw [toNat_field]; omega)
  unfold decodePngChunkType at h
  dsimp only at h
  split_ifs at h with hihdr hidat
  · cases h
    rw [hihdr] at htag
    exact ⟨htag, rfl⟩
  · cases h
    rw [hidat] at htag
    exact ⟨htag, rfl⟩
  · cases h
    exact ⟨htag, by simp [WellFormed, hihdr, hidat]⟩

/-- Only a chunk tag can make an instruction ill-formed (R87). -/
theorem wellFormed_of_format {i : Instr} (hf : formatOf i ≠ .pngChunkType) : WellFormed i = true := by
  cases i with
  | chunkOther tag => exact absurd rfl hf
  | _ => rfl

/-- Settles O2: the format is the decoder's, the bits come back format by format, and a chunk tag that decodes to CHUNK_OTHER is
neither of the two named ones. -/
theorem encodeOfDecode : Obligations.EncodeOfDecode := by
  intro f w i h
  have hf := decode_format h
  refine ⟨hf, ?_⟩
  unfold decode at h
  split at h
  next => cases h
  next hw =>
    have hlt : w.toNat < 2 ^ f.width := not_le.1 hw
    have other (hf' : f ≠ .pngChunkType) (he : encode i = w) : encode i = w ∧ WellFormed i = true :=
      ⟨he, wellFormed_of_format (hf ▸ hf')⟩
    cases f with
    | zlibCmf => exact other nofun (encode_of_decodeZlibCmf hlt h)
    | blockHeader => exact other nofun (encode_of_decodeBlockHeader hlt h)
    | clSymbol => exact other nofun (encode_of_decodeClSymbol hlt h)
    | litlenSymbol => exact other nofun (encode_of_decodeLitlenSymbol hlt h)
    | distSymbol => exact other nofun (encode_of_decodeDistSymbol h)
    | filterType => exact other nofun (encode_of_decodeFilterType hlt h)
    | ctrlWrite => exact other nofun (encode_of_decodeCtrlWrite hlt h)
    | regRead => exact other nofun (encode_of_decodeRegRead hlt h)
    | regWrite => exact other nofun (encode_of_decodeRegWrite h)
    | pngChunkType => exact encode_of_decodePngChunkType hlt h

end Sys2Proof.Machine
end

section
/-! PROOFS. A step runs the element it has fetched, in each of the ten formats (30_encoding R71); the words written out from
the encoding rules. -/

namespace Sys2Proof.Machine

/-- Settles O3: the decoder evaluated on each of the twenty words. -/
theorem wordsDecodeAsWritten : Obligations.WordsDecodeAsWritten := by
  unfold Obligations.WordsDecodeAsWritten
  decide

/-! ### The engine's elements -/

/-- A turn that has fetched its selector runs the instruction the selector decodes to, in the state after the fetch (R71). -/
theorem step_fetched {s t : State} {x : Run Nat} {f : Format} {v : Nat} {i : Instr} (ht : turn s = x.element f)
    (hx : x = .ok v t) (hd : decode f (BitVec.ofNat 40 v) = .ok i) : step s = exec i t := by
  rw [step_eq, ht, hx]
  exact Turn.outcome_element t hd

theorem turn_zlibHeader {s : State} (hm : engineMoves s) (hst : s.st = .zlibHeader) :
    turn s = ((readByte (tickHost s)).bind fun b s => .ok b.toNat s).element .zlibCmf := by
  rw [turn_engine hm, engineTurn, tickHost_st, hst]

theorem turn_blockHeader {s : State} (hm : engineMoves s) (hst : s.st = .blockHeader) :
    turn s = (readBlockHeader (tickHost s)).element .blockHeader := by
  rw [turn_engine hm, engineTurn, tickHost_st, hst]

theorem turn_blockBody {s : State} (hm : engineMoves s) (hst : s.st = .blockBody) :
    turn s = (huffDecode s.ll (tickHost s)).element .litlenSymbol := by
  rw [turn_engine hm, engineTurn, tickHost_st, hst, tickHost_ll]

theorem turn_filter {s : State} (hm : engineMoves s) (hst : s.st = .filter) (ha : filterTypeAddress s < memBytes) :
    turn s = (Run.ok (s.mem.read (filterTypeAddress s)).toNat (tickHost s)).element .filterType := by
  have haddr : filterTypeAddress (tickHost s) = filterTypeAddress s := by simp [filterTypeAddress]
  rw [turn_engine hm, engineTurn, tickHost_st, hst, haddr, memRead_ok _ ha, tickHost_mem]
  rfl

theorem turn_nextLength {s : State} (hp : s.phase = .clSymbols)
    (hn : s.dyn.nl.toNat ≠ s.dyn.hlit.toNat + s.dyn.hdist.toNat) :
    turn s = (huffDecode s.clt s).element .clSymbol := by
  rw [turn_clSymbols hp, if_neg]
  simpa [lengthsComplete] using hn

/-! ### The host's elements -/

theorem regWriteTurn_ctrl (v : Word) (s : State) :
    regWriteTurn 4 0x00#8 v s = .element .ctrlWrite (v.setWidth 40) s := rfl

theorem regReadTurn_status (s : State) : regReadTurn 4 0x04#8 s = .element .regRead 0x04#40 s := rfl

theorem configOffset_aligned : ∀ offset ∈ [0x08#8, 0x0C#8, 0x10#8, 0x14#8, 0x18#8, 0x1C#8, 0x20#8, 0x24#8],
    offset.toNat % 4 = 0 ∧ 0x08 ≤ offset.toNat ∧ offset.toNat ≤ 0x24 := by decide

/-- The walk's turn at a chunk that lies wholly in the input: its tag, with its length noted (R84). -/
theorem walkTurn_chunk {s : State} {len : Word} (hp : s.job.phase = .walking)
    (hlen : s.mem.readBe32 (s.job.inputBase.toNat + s.job.pos) = len)
    (hin : s.job.pos + 12 + len.toNat ≤ s.job.inputLen) (hmem : s.job.inputBase.toNat + s.job.inputLen ≤ memBytes)
    (hmay : mayRead s ⟨s.job.inputBase.toNat + s.job.pos, 8⟩ = true) :
    walkTurn s = .element .pngChunkType
      (BitVec.ofNat 40 (s.mem.readBe32 (s.job.inputBase.toNat + s.job.pos + 4)).toNat)
      { s with job := { s.job with chunkLen := len } } := by
  unfold walkTurn hostReading
  rw [if_neg (not_not.2 hp), if_neg (by omega), if_neg (by omega), if_pos hmay, memReadBe32_ok _ (by omega), hlen]
  dsimp only
  rw [if_neg (by omega), memReadBe32_ok _ (by omega)]
  rfl

/-- Settles O5: the turn of each format, and a turn's element is decoded and executed. -/
theorem stepRunsFetchedElement : Obligations.StepRunsFetchedElement := by
  intro s i
  refine ⟨fun hm hst b t hx hd => ?zlibCmf, fun hm hst v t hx hd => ?blockHeader, fun hp hn v t hx hd => ?clSymbol,
    fun hm hst v t hx hd => ?litlenSymbol, fun hp v t hx hd => ?distSymbol, fun hm hst ha hd => ?filterType,
    fun v hw hd => ?ctrlWrite, fun offset v hw ho hd => ?regWrite, fun hr hd => ?regRead,
    fun hm hp len tag hlen htag hin hmem hmay hd => ?pngChunkType⟩
  case zlibCmf => exact step_fetched (turn_zlibHeader hm hst) (by rw [hx, Run.bind_ok]) hd
  case blockHeader => exact step_fetched (turn_blockHeader hm hst) hx hd
  case clSymbol => exact step_fetched (turn_nextLength hp hn) hx hd
  case litlenSymbol => exact step_fetched (turn_blockBody hm hst) hx hd
  case distSymbol => exact step_fetched (turn_distSymbol hp) hx hd
  case filterType => exact step_fetched (turn_filter hm hst ha) rfl hd
  case ctrlWrite =>
    rw [step_hostWrites hw, regWriteTurn_ctrl]
    exact Turn.outcome_element _ hd
  case regWrite =>
    obtain ⟨haligned, hrow⟩ := configOffset_aligned offset ho
    rw [step_hostWrites hw]
    exact regWriteTurn_row _ haligned hrow hd
  case regRead =>
    rw [step_hostReads hr, regReadTurn_status]
    exact Turn.outcome_element _ hd
  case pngChunkType =>
    rw [step_eq, turn_host hm]
    refine (congrArg Turn.outcome (walkTurn_chunk hp hlen hin hmem hmay)).trans (Turn.outcome_element _ ?_)
    rwa [htag]

end Sys2Proof.Machine
end

section
/-! PROOFS. The fixed codes (30_encoding R69, R70): a canonical code inside a run of equal lengths, and the runs of R69. -/

namespace Sys2Proof.Machine

/-! ### A run of equal lengths -/

/-- In a run of `n` equal lengths the canonical codes are consecutive (R94). -/
theorem canonicalCode_run {lens before after : List Nat} {n l v s code : Nat}
    (hlens : lens = before ++ (List.replicate n l ++ after)) (hv : v < n) (hs : before.length + v = s)
    (hcode : firstCode lens l + before.count l + v = code) : lens.getD s 0 = l ∧ canonicalCode lens s = code := by
  subst hs hcode hlens
  have hget : (before ++ (List.replicate n l ++ after)).getD (before.length + v) 0 = l := by
    rw [List.getD_append_right _ _ _ _ (by omega), Nat.add_sub_cancel_left,
      List.getD_append _ _ _ _ (by rwa [List.length_replicate]), List.getD_replicate _ hv]
  have htake : (before ++ (List.replicate n l ++ after)).take (before.length + v) = before ++ List.replicate v l := by
    rw [List.take_length_add_append, List.take_append_of_le_length (by rw [List.length_replicate]; omega),
      List.take_replicate, min_eq_left hv.le]
  refine ⟨hget, ?_⟩
  rw [canonicalCode, hget, htake, List.count_append, List.count_replicate_self, Nat.add_assoc]

theorem longestLength_append_replicate (lens : List Nat) (n l : Nat) :
    longestLength (lens ++ List.replicate (n + 1) l) = max (longestLength lens) l := by
  unfold longestLength
  rw [List.foldl_append]
  generalize lens.foldl max 0 = a
  induction n with
  | zero => rfl
  | succ n ih => rw [List.replicate_succ', List.foldl_append, ih, List.foldl_cons, List.foldl_nil, max_assoc, max_self]

/-! ### The runs of R69 -/

theorem lengthCount_fixedLitlen (l : Nat) :
    lengthCount fixedLitlenLengths l = if l = 7 then 24 else if l = 8 then 152 else if l = 9 then 112 else 0 := by
  unfold lengthCount fixedLitlenLengths
  simp only [List.count_append, List.count_replicate, beq_iff_eq]
  split_ifs <;> omega

theorem lengthCount_fixedDist (l : Nat) : lengthCount fixedDistLengths l = if l = 5 then 32 else 0 := by
  unfold lengthCount fixedDistLengths
  simp only [List.count_replicate, beq_iff_eq]
  split_ifs <;> omega

theorem firstCode_fixedLitlen :
    firstCode fixedLitlenLengths 7 = 0 ∧ firstCode fixedLitlenLengths 8 = 48 ∧ firstCode fixedLitlenLengths 9 = 400 := by
  simp [firstCode, lengthCount_fixedLitlen]

theorem firstCode_fixedDist : firstCode fixedDistLengths 5 = 0 := by
  simp [firstCode, lengthCount_fixedDist]

theorem longestLength_fixedLitlen : longestLength fixedLitlenLengths = 9 := by
  have hfirst : longestLength (List.replicate 144 8) = 8 := longestLength_append_replicate [] 143 8
  unfold fixedLitlenLengths
  rw [longestLength_append_replicate, longestLength_append_replicate, longestLength_append_replicate, hfirst]
  rfl

theorem longestLength_fixedDist : longestLength fixedDistLengths = 5 := longestLength_append_replicate [] 31 5

/-- The literal/length table of the fixed codes (R70, R92). -/
theorem build_fixedLitlen (d : Nat) :
    (build llShape fixedLitlenLengths d).count.toList.map BitVec.toNat
        = [0, 0, 0, 0, 0, 0, 0, 24, 152, 112, 0, 0, 0, 0, 0, 0]
      ∧ (build llShape fixedLitlenLengths d).max = 9 := by
  unfold build
  dsimp only
  simp only [lengthCount_fixedLitlen, longestLength_fixedLitlen]
  decide

/-- The distance table of the fixed codes (R70, R92). -/
theorem build_fixedDist (d : Nat) :
    (build dtShape fixedDistLengths d).count.toList.map BitVec.toNat = [0, 0, 0, 0, 0, 32, 0, 0, 0, 0, 0, 0, 0, 0, 0, 0]
      ∧ (build dtShape fixedDistLengths d).max = 5 := by
  unfold build
  dsimp only
  simp only [lengthCount_fixedDist, longestLength_fixedDist]
  decide

/-- Settles O23: each of the five runs of R69 by `canonicalCode_run`, the counts by the runs' lengths. -/
theorem fixedCodes : Obligations.FixedCodes := by
  obtain ⟨h7, h8, h9⟩ := firstCode_fixedLitlen
  have hlens : fixedLitlenLengths
      = List.replicate 144 8 ++ (List.replicate 112 9 ++ (List.replicate 24 7 ++ (List.replicate 8 8 ++ []))) := by
    simp only [fixedLitlenLengths, List.append_assoc, List.append_nil]
  refine ⟨fun v hv => ?_, fun v hv => ?_, fun v hv => ?_, fun v hv => ?_, fun v hv => ?_,
    fixedLitlenLengths_length, fixedDistLengths_length, fun d => ?_⟩
  · exact canonicalCode_run (before := []) hlens hv (Nat.zero_add v) (by rw [h8]; rfl)
  · refine canonicalCode_run hlens hv ?_ ?_
    · rw [List.length_replicate]
    · rw [h9]; rfl
  · refine canonicalCode_run (before := List.replicate 144 8 ++ List.replicate 112 9)
      (hlens.trans (List.append_assoc _ _ _).symm) hv ?_ ?_
    · simp only [List.length_append, List.length_replicate]
    · simp [h7, List.count_replicate, -List.reduceReplicate]
  · refine canonicalCode_run (before := List.replicate 144 8 ++ List.replicate 112 9 ++ List.replicate 24 7)
      (after := []) ?_ hv ?_ ?_
    · rw [hlens, List.append_assoc, List.append_assoc]
    · simp only [List.length_append, List.length_replicate]
    · simp [h8, List.count_replicate, -List.reduceReplicate]
  · exact canonicalCode_run (lens := fixedDistLengths) (before := []) (after := []) rfl hv (Nat.zero_add v)
      (by rw [firstCode_fixedDist]; exact Nat.zero_add v)
  · obtain ⟨hcount, hmax⟩ := build_fixedLitlen d
    obtain ⟨hcount', hmax'⟩ := build_fixedDist d
    exact ⟨hcount, hmax, hcount', hmax'⟩

end Sys2Proof.Machine
end

section
/-! PROOFS. The length and distance symbols with their extra bits (44_block_body R67, R68, R120 to R123), and the copy as the
periodic run of the bytes before it. -/

namespace Sys2Proof.Machine

/-! ### The extra bits -/

/-- Error entry leaves the cursor unspecified (R147), so it does not tell states apart that differ in the cursor only. -/
theorem MovesCursor.enterError {s t : State} (h : MovesCursor s t) (e : ErrorCode) : enterError e t = enterError e s := by
  rw [h]; rfl

/-- The number of the first `n` bits, as extra bits are read (R77). -/
theorem bitsValue_take_lt {n : Nat} {bits : List Bool} (h : n ≤ bits.length) : bitsValue (bits.take n) < 2 ^ n := by
  simpa only [List.length_take, min_eq_left h] using bitsValue_lt (bits.take n)

/-- A length symbol whose extra bits are missing (R120). -/
theorem lengthSymbol_truncated {base ext : Nat} {s : State} (ht : tableReadable s) (h : (restBits s).length < ext) :
    lengthSymbol base ext s = .next (enterError .truncatedInput s) := by
  obtain ⟨t, hread, hmoves⟩ := readBits_end ht h
  rw [lengthSymbol, hread, Run.bind_raise, Run.finish_raise, hmoves.enterError]

/-- A length symbol whose extra bits are there (R120). -/
theorem lengthSymbol_reads {base ext : Nat} {s : State} (h : bitsLeft ext s) :
    ∃ c : Cursor, lengthSymbol base ext s = .next { s with
        copyLen := BitVec.ofNat 9 (base + bitsValue ((restBits s).take ext)), phase := .distSymbol, cur := c }
      ∧ restBits { s with cur := c } = (restBits s).drop ext := by
  obtain ⟨c, hread, hrest⟩ := readBits_rest h
  exact ⟨c, by rw [lengthSymbol, hread, Run.bind_ok, Run.finish_ok], hrest⟩

/-- Settles O38: the extra bits are read or missing, and base plus extra stays in 3 to 258. -/
theorem lengthElements : Obligations.LengthElements := by
  intro r hr s ht
  rw [exec_lengthRow hr]
  refine ⟨lengthSymbol_truncated ht, fun h => ?_⟩
  obtain ⟨c, hstep, hrest⟩ := lengthSymbol_reads (base := r.base) ⟨ht, h⟩
  obtain ⟨hlow, hhigh⟩ := lengthRow_range r hr
  have hextra := bitsValue_take_lt h
  have hlen : (BitVec.ofNat 9 (r.base + bitsValue ((restBits s).take r.extra))).toNat
      = r.base + bitsValue ((restBits s).take r.extra) := Nat.mod_eq_of_lt (by omega)
  exact ⟨c, _, hstep, hlen, by omega, by omega, hrest⟩

/-! ### The copy -/

/-- Memory `m` is `m0` with the `n` bytes at `p` on a copy of the bytes `dist` before them, in increasing order (R122). -/
structure CopiedRun (m0 m : Memory) (p n dist : Nat) : Prop where
  copied : ∀ k, k < n → m.read (p + k) = m.read (p + k - dist)
  other : ∀ a, (a < p ∨ p + n ≤ a) → m.read a = m0.read a

/-- One byte more at the front of a copied run. -/
theorem CopiedRun.cons {m0 m : Memory} {p n dist : Nat} (hd : 1 ≤ dist) (hp : dist ≤ p)
    (h : CopiedRun (m0.write p (m0.read (p - dist))) m (p + 1) n dist) : CopiedRun m0 m p (n + 1) dist := by
  have hother (a : Nat) (ha : a < p ∨ p + 1 + n ≤ a) : m.read a = m0.read a := by
    rw [h.other a (by omega), Memory.read_write_other _ _ (by omega)]
  refine ⟨fun k hk => ?_, fun a ha => hother a (by omega)⟩
  cases k with
  | zero =>
    rw [h.other (p + 0) (by omega), hother (p + 0 - dist) (by omega)]
    exact Memory.read_write_same _ _ _
  | succ k => simpa only [Nat.add_assoc, Nat.add_comm 1 k] using h.copied k (by omega)

/-- A copied run is periodic: it repeats the `dist` bytes before it (R123). -/
theorem CopiedRun.periodic {m0 m : Memory} {p n dist : Nat} (hd : 1 ≤ dist) (hp : dist ≤ p) (h : CopiedRun m0 m p n dist)
    {k : Nat} (hk : k < n) : m.read (p + k) = m0.read (p - dist + k % dist) := by
  induction k using Nat.strong_induction_on with
  | _ k ih =>
    rw [h.copied k hk]
    rcases lt_or_ge k dist with hlt | hge
    · rw [h.other _ (by omega), Nat.mod_eq_of_lt hlt, Nat.sub_add_comm hp]
    · rw [Nat.add_sub_assoc hge, ih (k - dist) (by omega) (by omega), Nat.mod_eq_sub_mod hge]

/-- `copy()` (R122) with room for its `n` bytes. -/
theorem copyMatch_copies (n : Nat) {s : State} (h1 : 1 ≤ s.copyDist.toNat) (hd : s.copyDist.toNat ≤ s.outCount.toNat)
    (hroom : s.outCount.toNat + n ≤ s.sizes.workSize.toNat)
    (hw : s.lat.wbase.toNat + s.sizes.workSize.toNat ≤ memBytes) :
    ∃ m : Memory, copyMatch n s = .ok () { s with mem := m, outCount := BitVec.ofNat 32 (s.outCount.toNat + n) }
      ∧ CopiedRun s.mem m (s.lat.wbase.toNat + s.outCount.toNat) n s.copyDist.toNat := by
  induction n generalizing s with
  | zero => exact ⟨s.mem, by simp [copyMatch], nofun, fun _ _ => rfl⟩
  | succ n ih =>
    have hcount : (s.outCount + 1).toNat = s.outCount.toNat + 1 := by
      have := s.sizes.workSize.isLt
      bv_omega
    rw [copyMatch_succ (by omega) hw]
    obtain ⟨m, hcopy, hrun⟩ := ih (s := { s with
      mem := s.mem.write (s.lat.wbase.toNat + s.outCount.toNat)
        (s.mem.read (s.lat.wbase.toNat + s.outCount.toNat - s.copyDist.toNat))
      outCount := s.outCount + 1 }) h1 (by simp only [hcount]; omega) (by simp only [hcount]; omega) hw
    refine ⟨m, ?_, CopiedRun.cons h1 (by omega) ?_⟩
    · rw [hcopy]; simp only [hcount, Nat.add_assoc, Nat.add_comm 1 n]
    · simpa only [hcount, Nat.add_assoc] using hrun

/-- A distance symbol with a legal distance and room for the match (R120 to R122). -/
theorem distanceSymbol_copies {base ext : Nat} {s : State} {dist : Nat} (hbits : bitsLeft ext s)
    (hdist : dist = base + bitsValue ((restBits s).take ext)) (h1 : 1 ≤ dist) (hmax : dist ≤ 32768)
    (hd : dist ≤ s.outCount.toNat) (hroom : s.outCount.toNat + s.copyLen.toNat ≤ s.sizes.workSize.toNat)
    (hw : s.lat.wbase.toNat + s.sizes.workSize.toNat ≤ memBytes) :
    ∃ (c : Cursor) (m : Memory), distanceSymbol base ext s = .next { s with
        cur := c
        copyDist := BitVec.ofNat 16 dist
        mem := m
        outCount := BitVec.ofNat 32 (s.outCount.toNat + s.copyLen.toNat)
        phase := .boundary }
      ∧ restBits { s with cur := c } = (restBits s).drop ext
      ∧ CopiedRun s.mem m (s.lat.wbase.toNat + s.outCount.toNat) s.copyLen.toNat dist := by
  obtain ⟨c, hread, hrest⟩ := readBits_rest hbits
  have hlatch : (BitVec.ofNat 16 dist).toNat = dist := Nat.mod_eq_of_lt (by omega)
  obtain ⟨m, hcopy, hrun⟩ := copyMatch_copies s.copyLen.toNat
    (s := { s with cur := c, copyDist := BitVec.ofNat 16 dist }) (hlatch.symm ▸ h1) (hlatch.symm ▸ hd) hroom hw
  refine ⟨c, m, ?_, hrest, by rwa [hlatch] at hrun⟩
  rw [distanceSymbol, hread, Run.bind_ok, ← hdist]
  dsimp only
  rw [if_neg (by rw [hlatch]; omega), hcopy, Run.bind_ok, Run.finish_ok]

/-- Settles O39: the row's distance is latched and the copy loop leaves a copied run, which is periodic. -/
theorem distanceElementsCopy : Obligations.DistanceElementsCopy := by
  intro r hr s dist ht hext hdist hd hroom hw
  obtain ⟨hlow, hhigh⟩ := distanceRow_range r hr
  have hextra := bitsValue_take_lt hext
  have h1 : 1 ≤ dist := by omega
  have hmax : dist ≤ 32768 := by omega
  obtain ⟨c, m, hstep, hrest, hrun⟩ := distanceSymbol_copies ⟨ht, hext⟩ hdist h1 hmax hd hroom hw
  refine ⟨c, m, (exec_distanceRow hr s).trans hstep, hrest, h1, hmax, fun k hk => ⟨hrun.copied k hk, ?_⟩, hrun.other⟩
  exact hrun.periodic h1 (by omega) hk

end Sys2Proof.Machine
end

section
/-! PROOFS. The bit reader (40_bit_reader R75 to R79): `ensure_byte` turn by turn, `fetch_bit` and `align_to_byte` at the
cursor, and `read_bits` and `read_byte` by value. -/

namespace Sys2Proof.Machine

/-! ### ensure_byte, turn by turn -/

/-- The cursor on the first byte of the next descriptor's segment (R41, R75). -/
def nextSegment (s : State) : Cursor :=
  { seg := s.cur.seg + 1
    addr := s.mem.readLe32 (s.lat.segtab.toNat + 8 * (s.cur.seg.toNat + 1))
    rem := s.mem.readLe32 (s.lat.segtab.toNat + 8 * (s.cur.seg.toNat + 1) + 4)
    bit := s.cur.bit }

/-- CUR_SEG is counted up without wrapping while a later segment exists. -/
theorem nextSegment_seg {s : State} (h : s.cur.seg.toNat + 1 < s.lat.nseg.toNat) :
    (nextSegment s).seg.toNat = s.cur.seg.toNat + 1 :=
  BitVec.toNat_add_of_lt (by have := s.lat.nseg.isLt; simpa using h.trans this)

theorem ensureByte_onByte {s : State} (h : s.cur.rem ≠ 0) : ensureByte s = .ok () s := by
  rw [ensureByte, ensureByteIn, if_pos h]

theorem ensureByte_exhausted {s : State} (h : s.cur.rem = 0) (hseg : s.lat.nseg.toNat ≤ s.cur.seg.toNat + 1) :
    ensureByte s = .raise .truncatedInput s := by
  rw [ensureByte, ensureByteIn, if_neg (not_not.2 h), if_pos hseg]

theorem ensureByte_nextSegment {s : State} (h : s.cur.rem = 0) (hseg : s.cur.seg.toNat + 1 < s.lat.nseg.toNat)
    (ht : tableReadable s) : ensureByte s = ensureByte { s with cur := nextSegment s } := by
  have hturns : s.lat.nseg.toNat - (nextSegment s).seg.toNat + 1 = s.lat.nseg.toNat - s.cur.seg.toNat := by
    rw [nextSegment_seg hseg]; omega
  rw [ensureByte, ensureByteIn, if_neg (not_not.2 h), if_neg (by omega), loadSegment_all ht hseg, Run.bind_ok, ensureByte,
    hturns]
  rfl

/-- Settles O15: the three turns of the loop. -/
theorem ensureByteLoop : Obligations.EnsureByteLoop := fun _ =>
  ⟨ensureByte_onByte, ensureByte_exhausted, ensureByte_nextSegment⟩

/-! ### fetch_bit and align_to_byte at the cursor -/

theorem Cursor.nextBit_inByte {c : Cursor} (h : c.bit ≠ 7) : c.nextBit = { c with bit := c.bit + 1 } := if_neg h

theorem Cursor.nextBit_eighth {c : Cursor} (h : c.bit = 7) : c.nextBit = c.nextByte := if_pos h

/-- At the start of a byte `read_byte` moves the cursor as the last of eight bits does. -/
theorem Cursor.nextByte_aligned {c : Cursor} (h : c.bit = 0) :
    c.nextByte = { c with addr := c.addr + 1, rem := c.rem - 1 } := by rw [Cursor.nextByte, h]

/-- CUR_BIT is counted up without wrapping before the eighth bit. -/
theorem toNat_succ_bit {bit : BitVec 3} (h : bit ≠ 7) : (bit + 1).toNat = bit.toNat + 1 :=
  BitVec.toNat_add_of_lt (by
    have hne : bit.toNat ≠ 7 := fun h7 => h (BitVec.eq_of_toNat_eq h7)
    have := bit.isLt
    simp
    omega)

/-- `fetch_bit` once `ensure_byte` has run through (R76). -/
theorem fetchBit_of_ensureByte {s t : State} (h : ensureByte s = .ok () t) :
    fetchBit s = .ok ((t.mem.read t.cur.addr.toNat).getLsbD t.cur.bit.toNat) { t with cur := t.cur.nextBit } := by
  rw [fetchBit, h, Run.bind_ok]

/-- `read_byte` once `ensure_byte` has run through (R79). -/
theorem readByte_of_ensureByte {s t : State} (h : ensureByte s = .ok () t) :
    readByte s = .ok (t.mem.read t.cur.addr.toNat)
      { t with cur := { t.cur with addr := t.cur.addr + 1, rem := t.cur.rem - 1 } } := by
  rw [readByte, h, Run.bind_ok]

/-- Settles O16: `fetch_bit` is `ensure_byte` and then the bit at the cursor, in the byte or at its end. -/
theorem fetchBitAtCursor : Obligations.FetchBitAtCursor := by
  refine fun s t => ⟨fun h hbit => ?_, fun h hbit => ?_, fun e h => ?_⟩
  · rw [fetchBit_of_ensureByte h, Cursor.nextBit_inByte hbit]
  · rw [fetchBit_of_ensureByte h, Cursor.nextBit_eighth hbit, hbit]
    rfl
  · rw [fetchBit, h, Run.bind_raise]

theorem alignToByte_aligned {s : State} (h : s.cur.bit = 0) : alignToByte s = s := if_pos h

theorem alignToByte_begun {s : State} (h : s.cur.bit ≠ 0) : alignToByte s = { s with cur := s.cur.nextByte } := if_neg h

/-- Settles O18: the two cases of R78. The prefix keeps the name apart from the operation's. -/
theorem BitReader.alignToByte : Obligations.AlignToByte := fun _ => ⟨alignToByte_aligned, alignToByte_begun⟩

/-! ### read_bits by value -/

/-- Bit `k` of the number is the `k`-th bit listed (R77). -/
theorem testBit_bitsValue (bits : List Bool) (k : Nat) : (bitsValue bits).testBit k = bits.getD k false := by
  induction bits generalizing k with
  | nil => simp [bitsValue]
  | cons b bits ih =>
    have hvalue : bitsValue (b :: bits) = Nat.bit b (bitsValue bits) := by
      rw [Nat.bit_val, bitsValue, Nat.add_comm]
    cases k with
    | zero => rw [hvalue, Nat.testBit_bit_zero]; rfl
    | succ k => rw [hvalue, Nat.testBit_bit_succ, ih]; rfl

/-- A raise in a state that differs in the cursor only, as the obligations write it. -/
theorem exists_cursor_of_moves {α : Type} {x : Run α} {e : ErrorCode} {s : State}
    (h : ∃ t, x = .raise e t ∧ MovesCursor s t) : ∃ c : Cursor, x = .raise e { s with cur := c } := by
  obtain ⟨t, hx, hmoves⟩ := h
  exact ⟨t.cur, hx.trans (congrArg _ hmoves)⟩

/-- Settles O17: the value is the number of the first `n` bits left, bit 0 first. -/
theorem readBitsValue : Obligations.ReadBitsValue := by
  refine fun n s ht => ⟨fun hn => ?_, fun hn => exists_cursor_of_moves (readBits_end ht hn)⟩
  obtain ⟨c, hread, hrest⟩ := readBits_rest ⟨ht, hn⟩
  refine ⟨_, c, hread, bitsValue_take_lt hn, fun k hk => ?_, hrest⟩
  rw [testBit_bitsValue, List.getD_eq_getElem?_getD, List.getD_eq_getElem?_getD, List.getElem?_take_of_lt hk]

/-! ### read_byte is read_bits(8) -/

/-- A number shifted down by `k` bits has bit `k` lowest. -/
theorem shiftRight_eq_testBit_add (x k : Nat) : x >>> k = (x.testBit k).toNat + 2 * (x >>> (k + 1)) := by
  rw [Nat.shiftRight_succ, Nat.toNat_testBit, Nat.shiftRight_eq_div_pow]
  omega

/-- The cursor's byte read bit by bit to its end: the byte without the bits consumed before (R76, R77). -/
theorem readBits_restOfByte (n : Nat) {s : State} (hrem : s.cur.rem ≠ 0) (hbit : s.cur.bit.toNat + n = 7) :
    readBits (n + 1) s
      = .ok ((s.mem.read s.cur.addr.toNat).toNat >>> s.cur.bit.toNat) { s with cur := s.cur.nextByte } := by
  induction n generalizing s with
  | zero =>
    have h7 : s.cur.bit = 7 := BitVec.eq_of_toNat_eq hbit
    have hend : (s.mem.read s.cur.addr.toNat).toNat >>> 8 = 0 := by
      rw [Nat.shiftRight_eq_div_pow]; exact Nat.div_eq_of_lt (s.mem.read s.cur.addr.toNat).isLt
    rw [readBits, fetchBit_of_ensureByte (ensureByte_onByte hrem), Run.bind_ok, readBits, Run.bind_ok,
      shiftRight_eq_testBit_add, Cursor.nextBit_eighth h7, h7, show (7 : BitVec 3).toNat + 1 = 8 from rfl, hend]
    rfl
  | succ n ih =>
    have hne : s.cur.bit ≠ 7 := fun h7 => by rw [h7] at hbit; simp at hbit
    have hnext := toNat_succ_bit hne
    rw [readBits, fetchBit_of_ensureByte (ensureByte_onByte hrem), Run.bind_ok, Cursor.nextBit_inByte hne,
      ih (s := { s with cur := { s.cur with bit := s.cur.bit + 1 } }) hrem (by rw [hnext]; omega), Run.bind_ok,
      shiftRight_eq_testBit_add _ s.cur.bit.toNat]
    simp only [hnext]
    rfl

/-- `read_bits(8)` at the start of a byte, once `ensure_byte` has run through (R79). -/
theorem readBits_eight {s t : State} (h : ensureByte s = .ok () t) (hbit : t.cur.bit = 0) (hrem : t.cur.rem ≠ 0) :
    readBits 8 s = .ok (t.mem.read t.cur.addr.toNat).toNat { t with cur := t.cur.nextByte } := by
  have hread := readBits_restOfByte 7 hrem (by rw [hbit]; rfl)
  rw [hbit, readBits, fetchBit_of_ensureByte (ensureByte_onByte hrem), ← fetchBit_of_ensureByte h] at hread
  exact hread

/-- Settles O19: both reads are `ensure_byte` and then the whole byte at the cursor, or `ensure_byte`'s own end. -/
theorem readByteIsReadBits8 : Obligations.ReadByteIsReadBits8 := by
  refine fun s hbit => ⟨fun t => readByte_of_ensureByte, fun e t h => by rw [readByte, h, Run.bind_raise], ?_⟩
  have hall := ensureByte_all s
  cases h : ensureByte s with
  | ok u t =>
    rw [h] at hall
    obtain ⟨-, hrem, hkeep⟩ := hall
    have hzero : t.cur.bit = 0 := hkeep.trans hbit
    rw [readBits_eight h hzero hrem, readByte_of_ensureByte h, Run.bind_ok, Cursor.nextByte_aligned hzero]
  | raise e t => simp [readBits, fetchBit, readByte, h]
  | fault f => simp [readBits, fetchBit, readByte, h]
  | refuse r => simp [readBits, fetchBit, readByte, h]

end Sys2Proof.Machine
end

section
/-! PROOFS. The flat view (40_bit_reader R81): the cursor over segments refines a position in one stream of bytes. -/

namespace Sys2Proof.Machine

/-! ### The flat stream by segments -/

theorem segmentAddrs_getElem? (a : Word) (n : Nat) {k : Nat} (h : k < n) :
    (segmentAddrs a n)[k]? = some (a + BitVec.ofNat 32 k).toNat := by
  induction k generalizing a n with
  | zero =>
    obtain ⟨n, rfl⟩ := Nat.exists_eq_add_of_lt h
    simp [segmentAddrs]
  | succ k ih =>
    obtain ⟨n, rfl⟩ := Nat.exists_eq_add_of_lt h
    have hnext : a + 1 + BitVec.ofNat 32 k = a + BitVec.ofNat 32 (k + 1) := by
      rw [Nat.add_comm k, BitVec.ofNat_add, BitVec.add_assoc]; rfl
    rw [segmentAddrs, List.getElem?_cons_succ, ih _ _ (by omega), hnext]

theorem laterAddrs_add (m : Memory) (segtab j k i : Nat) :
    laterAddrs m segtab (j + k) i = laterAddrs m segtab j i ++ laterAddrs m segtab k (i + j) := by
  induction j generalizing i with
  | zero => simp [laterAddrs]
  | succ j ih =>
    rw [Nat.add_right_comm, laterAddrs, ih, laterAddrs, List.append_assoc, Nat.add_assoc i, Nat.add_comm 1]

theorem laterAddrs_length (s : State) (n : Nat) :
    (laterAddrs s.mem s.lat.segtab.toNat n 0).length = lengthsBefore s n := by
  induction n with
  | zero => rfl
  | succ n ih =>
    rw [laterAddrs_add, List.length_append, ih, lengthsBefore]
    simp [laterAddrs, segmentAddrs_length, segmentLength]

theorem wholeStream_length (s : State) : (wholeStream s).length = lengthsBefore s s.lat.nseg.toNat := by
  rw [wholeStream, List.length_map, laterAddrs_length]

theorem lengthsBefore_mono (s : State) : Monotone (lengthsBefore s) :=
  monotone_nat_of_le_succ fun _ => Nat.le_add_right _ _

/-- Byte `k` of segment `i` in the flat stream (R81). -/
theorem wholeStream_getD {s : State} {i k : Nat} (hi : i < s.lat.nseg.toNat) (hk : k < segmentLength s i) :
    (wholeStream s).getD (lengthsBefore s i + k) 0
      = s.mem.read (s.mem.readLe32 (s.lat.segtab.toNat + 8 * i) + BitVec.ofNat 32 k).toNat := by
  obtain ⟨later, hlater⟩ := Nat.exists_eq_add_of_lt hi
  have hsplit : laterAddrs s.mem s.lat.segtab.toNat s.lat.nseg.toNat 0 = laterAddrs s.mem s.lat.segtab.toNat i 0
      ++ (segmentAddrs (s.mem.readLe32 (s.lat.segtab.toNat + 8 * i)) (segmentLength s i)
        ++ laterAddrs s.mem s.lat.segtab.toNat later (i + 1)) := by
    rw [hlater, Nat.add_assoc, laterAddrs_add, Nat.zero_add]
    rfl
  have haddr : (laterAddrs s.mem s.lat.segtab.toNat s.lat.nseg.toNat 0)[lengthsBefore s i + k]?
      = some (s.mem.readLe32 (s.lat.segtab.toNat + 8 * i) + BitVec.ofNat 32 k).toNat := by
    rw [hsplit, ← laterAddrs_length, List.getElem?_append_right (Nat.le_add_right _ _), Nat.add_sub_cancel_left,
      List.getElem?_append_left (by rw [segmentAddrs_length]; exact hk), segmentAddrs_getElem? _ _ hk]
  rw [wholeStream, List.getD_eq_getElem?_getD, List.getElem?_map, haddr]
  rfl

/-! ### The position in the flat stream -/

/-- `p / 8` of R81: the bytes before the one at the cursor. -/
theorem streamPosition_div (s : State) : streamPosition s / 8
    = lengthsBefore s s.cur.seg.toNat + (segmentLength s s.cur.seg.toNat - s.cur.rem.toNat) := by
  have := s.cur.bit.isLt
  unfold streamPosition
  omega

/-- `p mod 8` of R81 is CUR_BIT. -/
theorem streamPosition_mod (s : State) : streamPosition s % 8 = s.cur.bit.toNat := by
  have := s.cur.bit.isLt
  unfold streamPosition
  omega

/-- The byte at the cursor is byte `p / 8` of the flat stream (R81). -/
theorem wholeStream_atCursor {s : State} (h : cursorInStream s) (hrem : s.cur.rem ≠ 0) :
    (wholeStream s).getD (streamPosition s / 8) 0 = s.mem.read s.cur.addr.toNat := by
  obtain ⟨hseg, hle, haddr, -⟩ := h
  obtain ⟨k, hk, -⟩ := toNat_pred hrem
  rw [streamPosition_div, wholeStream_getD hseg (by omega), ← haddr]

/-- A cursor on a byte is before the end of the flat stream. -/
theorem streamPosition_lt {s : State} (h : cursorInStream s) (hrem : s.cur.rem ≠ 0) :
    streamPosition s < 8 * (wholeStream s).length := by
  obtain ⟨hseg, hle, -, -⟩ := h
  obtain ⟨k, hk, -⟩ := toNat_pred hrem
  have hend : lengthsBefore s (s.cur.seg.toNat + 1) ≤ (wholeStream s).length := by
    rw [wholeStream_length]; exact lengthsBefore_mono s hseg
  have hdiv := streamPosition_div s
  rw [lengthsBefore] at hend
  omega

theorem cursorInStream.sound {s : State} (h : cursorInStream s) : s.cur.sound := by
  obtain ⟨-, -, -, hsound⟩ := h
  exact hsound

theorem cursorInStream.bit_eq_zero {s : State} (h : cursorInStream s) (hrem : s.cur.rem = 0) : s.cur.bit = 0 :=
  not_not.1 fun hbit => h.sound hbit hrem

/-- A cursor at the end of its segment is where the segments up to it end. -/
theorem streamPosition_segmentEnd {s : State} (h : cursorInStream s) (hrem : s.cur.rem = 0) :
    streamPosition s = 8 * lengthsBefore s (s.cur.seg.toNat + 1) := by
  simp [streamPosition, hrem, h.bit_eq_zero hrem, lengthsBefore]

theorem streamPosition_le {s : State} (h : cursorInStream s) : streamPosition s ≤ 8 * (wholeStream s).length := by
  by_cases hrem : s.cur.rem = 0
  · rw [streamPosition_segmentEnd h hrem, wholeStream_length]
    exact Nat.mul_le_mul_left 8 (lengthsBefore_mono s h.1)
  · exact (streamPosition_lt h hrem).le

/-! ### The cursor's moves in the flat stream -/

/-- The segments' lengths do not depend on the cursor. -/
theorem lengthsBefore_withCur (s : State) (c : Cursor) (n : Nat) :
    lengthsBefore { s with cur := c } n = lengthsBefore s n := by
  induction n with
  | zero => rfl
  | succ n ih => rw [lengthsBefore, ih]; rfl

theorem streamPosition_withCur (s : State) (c : Cursor) : streamPosition { s with cur := c }
    = 8 * (lengthsBefore s c.seg.toNat + (segmentLength s c.seg.toNat - c.rem.toNat)) + c.bit.toNat := by
  rw [streamPosition, lengthsBefore_withCur]
  rfl

theorem cursorInStream_withCur (s : State) (c : Cursor) : cursorInStream { s with cur := c } ↔
    c.seg.toNat < s.lat.nseg.toNat ∧ c.rem.toNat ≤ segmentLength s c.seg.toNat
      ∧ c.addr = s.mem.readLe32 (s.lat.segtab.toNat + 8 * c.seg.toNat)
        + BitVec.ofNat 32 (segmentLength s c.seg.toNat - c.rem.toNat)
      ∧ c.sound := Iff.rfl

/-- The next segment's first byte is at the position where this segment ends (R75, R81). -/
theorem cursorInStream.toNextSegment {s : State} (h : cursorInStream s) (hrem : s.cur.rem = 0)
    (hseg : s.cur.seg.toNat + 1 < s.lat.nseg.toNat) :
    cursorInStream { s with cur := nextSegment s }
      ∧ streamPosition { s with cur := nextSegment s } = streamPosition s := by
  have hlen : segmentLength s (s.cur.seg.toNat + 1) = (nextSegment s).rem.toNat := rfl
  have hzero : s.cur.bit = 0 := h.bit_eq_zero hrem
  rw [cursorInStream_withCur, streamPosition_withCur, nextSegment_seg hseg, hlen, Nat.sub_self, BitVec.add_zero,
    streamPosition_segmentEnd h hrem]
  refine ⟨⟨hseg, le_rfl, rfl, fun hbit => absurd hzero hbit⟩, ?_⟩
  rw [show (nextSegment s).bit = 0 from hzero]
  rfl

/-- One byte on (R76, R78, R79): the position goes to the start of the next byte. -/
theorem cursorInStream.toNextByte {s : State} (h : cursorInStream s) (hrem : s.cur.rem ≠ 0) :
    cursorInStream { s with cur := s.cur.nextByte }
      ∧ streamPosition { s with cur := s.cur.nextByte } = 8 * (streamPosition s / 8 + 1) := by
  obtain ⟨hseg, hle, haddr, -⟩ := h
  obtain ⟨k, hk, hpred⟩ := toNat_pred hrem
  have hpassed : segmentLength s s.cur.seg.toNat - (s.cur.rem - 1).toNat
      = segmentLength s s.cur.seg.toNat - s.cur.rem.toNat + 1 := by omega
  rw [cursorInStream_withCur, streamPosition_withCur, streamPosition_div]
  dsimp only [Cursor.nextByte]
  rw [hpassed, BitVec.ofNat_add, ← BitVec.add_assoc, ← haddr]
  exact ⟨⟨hseg, by omega, rfl, fun hbit => absurd rfl hbit⟩, rfl⟩

/-- One bit on (R76). -/
theorem cursorInStream.toNextBit {s : State} (h : cursorInStream s) (hrem : s.cur.rem ≠ 0) :
    cursorInStream { s with cur := s.cur.nextBit }
      ∧ streamPosition { s with cur := s.cur.nextBit } = streamPosition s + 1 := by
  by_cases h7 : s.cur.bit = 7
  · rw [Cursor.nextBit_eighth h7]
    refine (h.toNextByte hrem).imp_right fun hpos => hpos.trans ?_
    have hmod := streamPosition_mod s
    rw [h7, show (7 : BitVec 3).toNat = 7 from rfl] at hmod
    omega
  · obtain ⟨hseg, hle, haddr, -⟩ := h
    rw [Cursor.nextBit_inByte h7, streamPosition_withCur, toNat_succ_bit h7]
    exact ⟨⟨hseg, hle, haddr, fun _ => hrem⟩, rfl⟩

/-! ### The reads refine reads of the flat stream -/

/-- `ensure_byte` keeps the position, and raises at the end of the flat stream only (R75, R81). -/
theorem ensureByte_keepsPosition {s : State} (ht : tableReadable s) (h : cursorInStream s) :
    (ensureByte s).All False (fun _ t => cursorInStream t ∧ streamPosition t = streamPosition s)
      (fun _ _ => streamPosition s = 8 * (wholeStream s).length) := by
  by_cases hrem : s.cur.rem = 0
  · by_cases hseg : s.cur.seg.toNat + 1 < s.lat.nseg.toNat
    · obtain ⟨hin, hpos⟩ := h.toNextSegment hrem hseg
      rw [ensureByte_nextSegment hrem hseg ht]
      exact (ensureByte_keepsPosition (s := { s with cur := nextSegment s }) ht hin).imp id
        (fun _ t ht' => ⟨ht'.1, ht'.2.trans hpos⟩) (fun _ _ hend => hpos.symm.trans hend)
    · have hlast : s.cur.seg.toNat + 1 = s.lat.nseg.toNat := by have := h.1; omega
      rw [ensureByte_exhausted hrem (by omega)]
      show streamPosition s = _
      rw [streamPosition_segmentEnd h hrem, wholeStream_length, hlast]
  · rw [ensureByte_onByte hrem]
    exact ⟨h, rfl⟩
termination_by s.lat.nseg.toNat - s.cur.seg.toNat
decreasing_by
  show s.lat.nseg.toNat - (nextSegment s).seg.toNat < _
  rw [nextSegment_seg hseg]
  omega

/-- The read answers `v` before the end of the flat stream and moves the position `n` bits on; at the end it raises (R81). -/
def ReadsFlat {α : Type} (s : State) (x : Run α) (v : α) (n : Nat) : Prop :=
  x.All False
    (fun a t => MovesCursor s t ∧ streamPosition s < 8 * (wholeStream s).length ∧ a = v
      ∧ streamPosition t = streamPosition s + n ∧ cursorInStream t)
    (fun e t => e = .truncatedInput ∧ MovesCursor s t ∧ streamPosition s = 8 * (wholeStream s).length)

theorem ReadsFlat.before {α : Type} {s : State} {x : Run α} {v : α} {n : Nat} (h : ReadsFlat s x v n)
    (hp : streamPosition s < 8 * (wholeStream s).length) :
    ∃ c : Cursor, x = .ok v { s with cur := c } ∧ streamPosition { s with cur := c } = streamPosition s + n
      ∧ cursorInStream { s with cur := c } := by
  cases x with
  | ok a t =>
    obtain ⟨hmoves, -, rfl, hpos, hin⟩ := h
    exact ⟨t.cur, congrArg _ hmoves, hmoves ▸ hpos, hmoves ▸ hin⟩
  | raise e t =>
    obtain ⟨-, -, hend⟩ := h
    exact absurd hend hp.ne
  | fault f => exact h.elim
  | refuse r => exact h.elim

theorem ReadsFlat.atEnd {α : Type} {s : State} {x : Run α} {v : α} {n : Nat} (h : ReadsFlat s x v n)
    (hp : streamPosition s = 8 * (wholeStream s).length) :
    ∃ c : Cursor, x = .raise .truncatedInput { s with cur := c } := by
  cases x with
  | ok a t =>
    obtain ⟨-, hlt, -⟩ := h
    exact absurd hp hlt.ne
  | raise e t =>
    obtain ⟨rfl, hmoves, -⟩ := h
    exact exists_cursor_of_moves ⟨t, rfl, hmoves⟩
  | fault f => exact h.elim
  | refuse r => exact h.elim

/-- `ensure_byte` and then a move past what was read is a read of the flat stream. -/
theorem ensureByte_bind_readsFlat {α : Type} {s : State} (ht : tableReadable s) (h : cursorInStream s)
    {k : Unit → State → Run α} {v : α} {n : Nat}
    (hk : ∀ c : Cursor, cursorInStream { s with cur := c } → c.rem ≠ 0 → c.bit = s.cur.bit →
      streamPosition { s with cur := c } = streamPosition s →
      (wholeStream s).getD (streamPosition s / 8) 0 = s.mem.read c.addr.toNat →
      ∃ c' : Cursor, k () { s with cur := c } = .ok v { s with cur := c' } ∧ cursorInStream { s with cur := c' }
        ∧ streamPosition { s with cur := c' } = streamPosition s + n) :
    ReadsFlat s ((ensureByte s).bind k) v n := by
  refine Run.All.bind (((ensureByte_all s).and (ensureByte_keepsPosition ht h)).imp And.right (fun _ _ h => h) ?_) ?_
  · rintro e t ⟨⟨he, hmoves⟩, hend⟩
    exact ⟨he, hmoves, hend⟩
  · rintro - t ⟨⟨hmoves, hrem, hbit⟩, hin, hpos⟩
    rw [hmoves] at hin hpos ⊢
    obtain ⟨c', hrun, hin', hpos'⟩ := hk t.cur hin hrem hbit hpos (hpos ▸ wholeStream_atCursor hin hrem)
    rw [hrun]
    exact ⟨.of s c', hpos ▸ streamPosition_lt hin hrem, rfl, hpos', hin'⟩

theorem fetchBit_readsFlat {s : State} (ht : tableReadable s) (h : cursorInStream s) :
    ReadsFlat s (fetchBit s) (((wholeStream s).getD (streamPosition s / 8) 0).getLsbD (streamPosition s % 8)) 1 := by
  refine ensureByte_bind_readsFlat ht h fun c hin hrem hbit hpos hbyte => ⟨c.nextBit, ?_, ?_⟩
  · rw [hbyte, streamPosition_mod, ← hbit]
  · exact (hin.toNextBit hrem).imp_right (hpos ▸ ·)

theorem readByte_readsFlat {s : State} (ht : tableReadable s) (h : cursorInStream s) (hzero : s.cur.bit = 0) :
    ReadsFlat s (readByte s) ((wholeStream s).getD (streamPosition s / 8) 0) 8 := by
  refine ensureByte_bind_readsFlat ht h fun c hin hrem hbit hpos hbyte => ⟨c.nextByte, ?_, ?_⟩
  · rw [hbyte, Cursor.nextByte_aligned (hbit.trans hzero)]
  · have hmod := streamPosition_mod s
    rw [hzero, show (0 : BitVec 3).toNat = 0 from rfl] at hmod
    refine (hin.toNextByte hrem).imp_right fun hnext => hnext.trans ?_
    omega

/-- `align_to_byte` rounds the position up to a byte (R78, R81). -/
theorem alignToByte_rounds {s : State} (h : cursorInStream s) :
    streamPosition (alignToByte s) = (streamPosition s + 7) / 8 * 8 ∧ cursorInStream (alignToByte s) := by
  have hmod := streamPosition_mod s
  by_cases hbit : s.cur.bit = 0
  · rw [alignToByte_aligned hbit]
    rw [hbit, show (0 : BitVec 3).toNat = 0 from rfl] at hmod
    exact ⟨by omega, h⟩
  · obtain ⟨hin, hpos⟩ := h.toNextByte (h.sound hbit)
    have hne : s.cur.bit.toNat ≠ 0 := fun h0 => hbit (BitVec.eq_of_toNat_eq h0)
    rw [alignToByte_begun hbit]
    exact ⟨by omega, hin⟩

/-- Settles O14: each read refines a read of the flat stream, and keeps the cursor in its segment. -/
theorem flatView : Obligations.FlatView := by
  intro s ht h
  have hbit := fetchBit_readsFlat ht h
  obtain ⟨hround, hin⟩ := alignToByte_rounds h
  exact ⟨streamPosition_le h, hbit.before, hbit.atEnd, hround, hin, fun hzero => (readByte_readsFlat ht h hzero).before,
    fun hzero => (readByte_readsFlat ht h hzero).atEnd⟩

end Sys2Proof.Machine
end

section
/-! PROOFS. The container parser (41_host_container R82 to R91): the chunk types, the signature and the bounds of the walk. -/

namespace Sys2Proof.Machine

/-! ### The chunk types -/

theorem Ihdr.supported_iff (h : Ihdr) : h.supported = true ↔
    h.bitDepth = 8 ∧ (h.colorType = 2 ∨ h.colorType = 6) ∧ h.compression = 0 ∧ h.filter = 0 ∧ h.interlace = 0
      ∧ h.width ≠ 0 ∧ h.height ≠ 0 := by
  simp only [Ihdr.supported, formatSupported, Bool.and_eq_true, Bool.or_eq_true, beq_iff_eq, bne_iff_ne, and_assoc]

section
variable {s : State} (hi : s.job.ihdr = none) (hlen : s.job.chunkLen = 13)
include hi

theorem exec_chunkIhdr_badLength (hl : s.job.chunkLen ≠ 13) :
    exec .chunkIhdr s = .next (jobFail .unsupportedImageFormat s) := by
  show execChunkIhdr s = _
  rw [execChunkIhdr, hi, if_neg nofun, if_pos hl]

include hlen

theorem exec_chunkIhdr_lent (hr : mayRead s ⟨payloadAddress s, 13⟩ = false) :
    exec .chunkIhdr s = .refused .hostTouchesRegion := by
  show execChunkIhdr s = _
  rw [execChunkIhdr, hi, if_neg nofun, if_neg (not_not.2 hlen), hostReading, hr, if_neg nofun]
  rfl

/-- The first IHDR of 13 readable bytes is recorded when it is supported, and else fails the call (R85). -/
theorem exec_chunkIhdr_first {hd : Ihdr} (hr : mayRead s ⟨payloadAddress s, 13⟩ = true)
    (hx : readIhdr (payloadAddress s) s = .ok hd s) :
    exec .chunkIhdr s = .next (if hd.supported then advanceChunk { s with job := { s.job with ihdr := some hd } }
      else jobFail .unsupportedImageFormat s) := by
  show execChunkIhdr s = _
  rw [execChunkIhdr, hi, if_neg nofun, if_neg (not_not.2 hlen), hostReading, if_pos hr, hx, Run.bind_ok, Run.finish_ok]

end

/-- Settles O58: a skipped chunk and a segment by their meanings, a first IHDR by its length, its loan and its fields. -/
theorem chunkElements : Obligations.ChunkElements := by
  rintro s pay rfl
  refine ⟨fun _ => rfl, rfl, fun hi => ?later, fun hi hl => exec_chunkIhdr_badLength hi hl,
    fun hi hl hr => exec_chunkIhdr_lent hi hl hr, fun hi hl hin hr hd hhd => ?first⟩
  case later => exact if_pos (Option.isSome_iff_ne_none.2 hi)
  case first =>
    rw [exec_chunkIhdr_first hi hl hr (hhd ▸ readIhdr_ok s hin)]
    refine ⟨fun h => ?supported, fun h => ?rejected⟩
    case supported => rw [if_pos (hd.supported_iff.2 h)]; rfl
    case rejected =>
      rw [if_neg fun hs => ?_]
      · rfl
      · have := hd.supported_iff.1 hs
        tauto

/-! ### The signature and the bounds of the walk -/

theorem signatureMatches_iff (m : Memory) (base : Nat) :
    signatureMatches m base = true ↔ ∀ k, k < 8 → m.read (base + k) = pngSignature.getD k 0 := by
  have hsignature : (List.range 8).map (pngSignature.getD · 0) = pngSignature := by decide
  calc signatureMatches m base = true
      ↔ (List.range 8).map (fun k => m.read (base + k)) = (List.range 8).map (pngSignature.getD · 0) := by
        rw [signatureMatches, beq_iff_eq, hsignature]
    _ ↔ ∀ k, k < 8 → m.read (base + k) = pngSignature.getD k 0 := by
        simp only [List.map_inj_left, List.mem_range]

/-- The record of a decode call whose walk begins behind the signature (R83, R84). -/
def HostJob.opened (base : Word) (len : Nat) (place : Placement) : HostJob :=
  ⟨.walking, base, len, 8, 0, none, [], place, none, none, .pending⟩

section
variable {base : Word} {len : Nat} {place : Placement} {s : State} (hin : base.toNat + len ≤ memBytes)
include hin

theorem openImage_short (hl : len < 8) :
    openImage base len place s = .next (jobFail .badSignature { s with job := .opened base len place }) := by
  rw [openImage, if_neg (not_lt.2 hin)]
  exact if_pos hl

variable (hl : 8 ≤ len)
include hl

theorem openImage_lent (hr : mayRead s ⟨base.toNat, 8⟩ = false) :
    openImage base len place s = .refused .hostTouchesRegion := by
  rw [openImage, if_neg (not_lt.2 hin)]
  refine (if_neg (not_lt.2 hl)).trans (congrArg Run.finish (if_neg ?_))
  exact Bool.eq_false_iff.1 hr

theorem openImage_readable (hr : mayRead s ⟨base.toNat, 8⟩ = true) :
    openImage base len place s = .next
      (if signatureMatches s.mem base.toNat then
        { s with job := .opened base len place, hostQueue := ⟨0, .walkChunk⟩ :: s.hostQueue }
       else jobFail .badSignature { s with job := .opened base len place }) := by
  rw [openImage, if_neg (not_lt.2 hin)]
  exact (if_neg (not_lt.2 hl)).trans (congrArg Run.finish (if_pos hr))

end

theorem step_openImage {s : State} {base : Word} {len : Nat} {place : Placement}
    (h : hostMoves s (.openImage base len place)) : step s = openImage base len place (popHost s) := by
  rw [step_eq, turn_host h]
  rfl

section
variable {s : State} (hp : s.job.phase = .walking)
include hp

theorem walkTurn_end (hpos : s.job.inputLen ≤ s.job.pos) : walkTurn s = .silent (endWalk (popHost s)) := by
  rw [walkTurn, if_neg (not_not.2 hp), if_pos hpos]

theorem walkTurn_headerCut (hpos : s.job.pos < s.job.inputLen) (hcut : s.job.inputLen < s.job.pos + 12) :
    walkTurn s = .silent (.next (jobFail .truncatedInput s)) := by
  rw [walkTurn, if_neg (not_not.2 hp), if_neg (not_le.2 hpos), if_pos (by omega)]

variable (hfit : s.job.pos + 12 ≤ s.job.inputLen)
include hfit

theorem walkTurn_lent (hr : mayRead s ⟨s.job.inputBase.toNat + s.job.pos, 8⟩ = false) :
    walkTurn s = .silent (.refused .hostTouchesRegion) := by
  rw [walkTurn, if_neg (not_not.2 hp), if_neg (by omega), if_neg (by omega), hostReading,
    if_neg (Bool.eq_false_iff.1 hr)]

/-- The payload or the CRC of the chunk is cut short (R84). -/
theorem walkTurn_payloadCut (hin : s.job.inputBase.toNat + s.job.inputLen ≤ memBytes)
    (hr : mayRead s ⟨s.job.inputBase.toNat + s.job.pos, 8⟩ = true)
    (hcut : s.job.inputLen < s.job.pos + 12 + (s.mem.readBe32 (s.job.inputBase.toNat + s.job.pos)).toNat) :
    walkTurn s = .silent (.next (jobFail .truncatedInput s)) := by
  rw [walkTurn, if_neg (not_not.2 hp), if_neg (by omega), if_neg (by omega), hostReading, if_pos hr,
    memReadBe32_ok _ (by omega)]
  exact if_pos (by omega)

end

theorem step_walkChunk {s : State} (h : hostMoves s .walkChunk) : step s = (walkTurn s).outcome := by
  rw [step_eq, turn_host h]
  rfl

/-- Settles O59: the call by its input's length, loan and eight bytes, and the walk's turn by what is left of the input. -/
theorem signatureAndWalkBounds : Obligations.SignatureAndWalkBounds := by
  refine ⟨fun s base len place job hm hin hjob => ?opening, fun s hm hp hin hpos => ?walk⟩
  case opening =>
    subst hjob
    rw [step_openImage hm]
    refine ⟨openImage_short hin, openImage_lent (s := popHost s) hin, fun hl hr hbad => ?wrong, fun hl hr hgood => ?right⟩
    case wrong =>
      obtain ⟨k, hk, hne⟩ := hbad
      have hsig : ¬ signatureMatches s.mem base.toNat = true := fun h => hne ((signatureMatches_iff _ _).1 h k hk)
      exact (openImage_readable (s := popHost s) hin hl hr).trans (congrArg _ (if_neg hsig))
    case right =>
      have hsig : signatureMatches s.mem base.toNat = true := (signatureMatches_iff _ _).2 hgood
      exact (openImage_readable (s := popHost s) hin hl hr).trans (congrArg _ (if_pos hsig))
  case walk =>
    rw [step_walkChunk hm]
    exact ⟨fun hcut => congrArg Turn.outcome (walkTurn_headerCut hp hpos hcut),
      fun hfit hr => congrArg Turn.outcome (walkTurn_lent hp hfit hr),
      fun hfit hr hcut => congrArg Turn.outcome (walkTurn_payloadCut hp hfit hin hr hcut)⟩

end Sys2Proof.Machine
end

section
/-! PROOFS. The end of the chunk walk (41_host_container R88 to R90): the allocation as a test of bytes, the segment table byte
by byte, the launch, and the result. -/

namespace Sys2Proof.Machine

/-! ### The segment table's bytes -/

theorem le32Bytes_get (v : Word) {j : Nat} (h : j < 4) :
    (le32Bytes v)[j]? = some (BitVec.ofNat 8 (v.toNat / 256 ^ j)) := by
  interval_cases j <;>
    simp [le32Bytes, ← BitVec.toNat_inj, Nat.shiftRight_eq_div_pow]

/-- Byte `j` of a descriptor: address and length as one number of 64 bits, least significant byte first (R41). -/
def Segment.descriptorByte (g : Segment) (j : Nat) : Byte :=
  BitVec.ofNat 8 ((g.addr.toNat + 2 ^ 32 * g.len.toNat) / 256 ^ j)

theorem descriptor_get (g : Segment) {j : Nat} (h : j < 8) :
    (le32Bytes g.addr ++ le32Bytes g.len)[j]? = some (g.descriptorByte j) := by
  have haddr := g.addr.isLt
  unfold Segment.descriptorByte
  rcases lt_or_ge j 4 with hj | hj
  · rw [List.getElem?_append_left hj, le32Bytes_get _ hj]
    refine congrArg some (BitVec.eq_of_toNat_eq ?_)
    rw [BitVec.toNat_ofNat, BitVec.toNat_ofNat]
    interval_cases j <;> omega
  · have hlen : (g.addr.toNat + 2 ^ 32 * g.len.toNat) / 256 ^ j = g.len.toNat / 256 ^ (j - 4) := by
      obtain ⟨k, rfl⟩ := Nat.exists_eq_add_of_le hj
      rw [pow_add, ← Nat.div_div_eq_div_mul, Nat.add_sub_cancel_left]
      congr 1
      omega
    rw [List.getElem?_append_right hj, hlen]
    exact le32Bytes_get _ (show j - 4 < 4 by omega)

theorem tableBytes_get {l : List Segment} {i j : Nat} {g : Segment} (hg : l[i]? = some g) (hj : j < 8) :
    (tableBytes l)[8 * i + j]? = some (g.descriptorByte j) := by
  induction l generalizing i with
  | nil => cases hg
  | cons d t ih =>
    have htable : tableBytes (d :: t) = (le32Bytes d.addr ++ le32Bytes d.len) ++ tableBytes t := rfl
    rw [htable]
    cases i with
    | zero =>
      cases hg
      rw [Nat.mul_zero, Nat.zero_add, List.getElem?_append_left hj, descriptor_get g hj]
    | succ i =>
      rw [List.getElem?_append_right (show 8 ≤ 8 * (i + 1) + j by omega), ← ih hg]
      exact congrArg (fun k => (tableBytes t)[k]?) (show 8 * (i + 1) + j - 8 = 8 * i + j by omega)

/-- The launch's write of byte `j` of descriptor `i` (R41, R90). -/
theorem tableWrites_get {l : List Segment} {i j : Nat} {g : Segment} (base : Word) (hg : l[i]? = some g) (hj : j < 8) :
    (memWrites (tableBytes l) base)[8 * i + j]? = some ⟨0, .memWrite (BitVec.ofNat 32 (base.toNat + 8 * i + j))
      (g.descriptorByte j)⟩ := by
  obtain ⟨hk, hbyte⟩ := List.getElem?_eq_some_iff.1 (tableBytes_get hg hj)
  have hwrite := memWrites_get (tableBytes l) base.toNat (8 * i + j) hk
  rwa [BitVec.ofNat_toNat, BitVec.setWidth_eq, hbyte, ← Nat.add_assoc] at hwrite

/-! ### The registers' words -/

theorem fmt0Word_toNat (h : Ihdr) : (fmt0Word h).toNat =
    h.bitDepth.toNat + 256 * h.colorType.toNat + 65536 * h.compression.toNat + 16777216 * h.filter.toNat := by
  simp only [fmt0Word, toNat_append_eq_add]
  omega

theorem fmt1Word_toNat (h : Ihdr) : (fmt1Word h).toNat = h.interlace.toNat + 256 := by
  rw [fmt1Word, toNat_append_eq_add]
  exact Nat.add_comm _ _

/-! ### The allocation -/

theorem allocationFits_iff (work out table : Region) : allocationFits work out table = true ↔
    work.base + work.size ≤ memBytes ∧ out.base + out.size ≤ memBytes ∧ table.base + table.size ≤ memBytes := by
  simp only [allocationFits, Bool.and_eq_true, Region.fits_iff, and_assoc]

theorem Segment.region_holds (g : Segment) (a : Nat) :
    g.region.holds a = true ↔ g.addr.toNat ≤ a ∧ a < g.addr.toNat + g.len.toNat := Region.holds_iff _ a

theorem allocationDisjoint_iff (work out table : Region) (segs : List Segment) :
    allocationDisjoint work out table segs = true ↔ allocationApart work out table segs := by
  have hsegments : (∀ g ∈ segs, ∀ a, work.holds a = true ∨ out.holds a = true → ¬ g.region.holds a = true)
      ↔ ∀ a, work.holds a = true ∨ out.holds a = true → ∀ g ∈ segs, ¬ g.region.holds a = true :=
    ⟨fun h a ha g hg => h g hg a ha, fun h g hg a ha => h a ha g hg⟩
  have hbuffers : (!work.overlaps out) = true ↔ ∀ a, ¬ (work.holds a = true ∧ out.holds a = true) := by
    rw [Bool.not_eq_true', Region.overlaps_eq_false]
  simp only [allocationDisjoint, allocationApart, Bool.and_eq_true, hbuffers, clearOf_iff, List.all_eq_true, hsegments,
    ← Segment.region_holds, ← Bool.not_eq_true, imp_and, forall_and, and_assoc]

/-! ### The end of the walk -/

theorem endWalkWith_missing {maxWork : Nat} {s : State} (h : s.job.ihdr = none ∨ s.job.segs = []) :
    endWalkWith maxWork s = .next (jobFail .missingHeaderOrData s) := by
  unfold endWalkWith
  split
  next => rfl
  next hd hi => exact if_pos (h.resolve_left (hi ▸ nofun))

/-- A walk that has recorded an IHDR and an IDAT, and the regions of its launch (R88, R89). -/
structure Recorded (s : State) (h : Ihdr) (work out table : Region) : Prop where
  ihdr : s.job.ihdr = some h
  segs : s.job.segs ≠ []
  work : work = allocWork h s.job.place
  out : out = allocOut h s.job.place
  table : table = tableRegion s.job.place.segtab.toNat s.job.segs.length

section
variable {maxWork : Nat} {s : State} {h : Ihdr} {work out table : Region} (hr : Recorded s h work out table)
include hr

theorem endWalkWith_tooLarge (hw : maxWork < work.size) :
    endWalkWith maxWork s = .next (jobFail .unsupportedImageFormat s) := by
  obtain ⟨hi, hs, rfl, rfl, rfl⟩ := hr
  rw [endWalkWith, hi]
  exact (if_neg hs).trans (if_pos hw)

variable (hw : work.size ≤ maxWork)
include hw

theorem endWalkWith_unfit (hf : allocationFits work out table = false) :
    endWalkWith maxWork s = .refused .regionBeyondMemory := by
  obtain ⟨hi, hs, rfl, rfl, rfl⟩ := hr
  rw [endWalkWith, hi]
  exact (if_neg hs).trans ((if_neg (not_lt.2 hw)).trans (if_pos hf))

variable (hf : allocationFits work out table = true)
include hf

theorem endWalkWith_overlapping (hd : allocationDisjoint work out table s.job.segs = false) :
    endWalkWith maxWork s = .refused .regionsOverlap := by
  obtain ⟨hi, hs, rfl, rfl, rfl⟩ := hr
  rw [endWalkWith, hi]
  exact (if_neg hs).trans ((if_neg (not_lt.2 hw)).trans ((if_neg (Bool.ne_false_iff.2 hf)).trans (if_pos hd)))

theorem endWalkWith_launches (hd : allocationDisjoint work out table s.job.segs = true) :
    endWalkWith maxWork s = .next { s with
      job := { s.job with phase := .launched, work := some work, out := some out }
      hostQueue := launchActions h s.job.segs s.job.place ++ s.hostQueue } := by
  obtain ⟨hi, hs, rfl, rfl, rfl⟩ := hr
  rw [endWalkWith, hi]
  exact (if_neg hs).trans ((if_neg (not_lt.2 hw)).trans
    ((if_neg (Bool.ne_false_iff.2 hf)).trans (if_neg (Bool.ne_false_iff.2 hd))))

end

/-! ### The result -/

theorem step_takeResult {s : State} (h : hostMoves s .takeResult) : step s = .next (takeResult (popHost s)) := by
  rw [step_eq, turn_host h]
  rfl

/-- The wait of the launch ends with BUSY = 0: STATUS is read, so every region is the host's again (R90, R156). -/
theorem takeResult_finished {s : State} (hp : s.job.phase = .launched) (hb : s.busy = false) :
    takeResult s = { s with
      busRdata := s.statusWord
      loan := none
      job := { s.job with
        phase := .returned
        work := none
        out := if s.isDone then s.job.out else none
        result := jobOutcome s } } := by
  rw [takeResult, if_neg (not_not.2 hp), hostReadStatus, hb]
  rfl

theorem takeResult_done {s : State} (hp : s.job.phase = .launched) (hst : s.st = .done) :
    takeResult s = { s with
      busRdata := s.statusWord
      loan := none
      job := { s.job with
        phase := .returned
        work := none
        result := .image s.job.place.out s.cfg.ihdrWidth s.cfg.ihdrHeight (s.sizes.outChannels.setWidth 32) } } := by
  have hdone : s.isDone = true := by rw [State.isDone, hst]; rfl
  rw [takeResult_finished hp (by rw [State.busy, hst]; rfl), jobOutcome, if_pos hdone, if_pos hdone]

theorem takeResult_error {s : State} (hp : s.job.phase = .launched) (hst : s.st = .error) :
    takeResult s = { s with
      busRdata := s.statusWord
      loan := none
      job := { s.job with
        phase := .returned
        work := none
        out := none
        result := .failure s.errCode } } := by
  have hdone : ¬ s.isDone = true := by rw [State.isDone, hst]; nofun
  have herror : s.isError = true := by rw [State.isError, hst]; rfl
  rw [takeResult_finished hp (by rw [State.busy, hst]; rfl), jobOutcome, if_neg hdone, if_neg hdone, if_pos herror]

/-- Settles O60: the end of the walk by the recorded chunks, the size bound and the allocation's tests, and the wait by the
state it ends in. -/
theorem endOfWalkAndResult : Obligations.EndOfWalkAndResult := by
  refine ⟨fun s hm hp hpos => ?turn,
    fun maxWork s => ⟨endWalkWith_missing, fun hd hi hs bpp n work out hbpp hn hwork hout => ?recorded⟩,
    fun s hm hp => ?result⟩
  case turn =>
    rw [step_walkChunk hm, walkTurn_end hp hpos]
    rfl
  case recorded =>
    subst hbpp hn
    have hr : Recorded s hd work out (tableRegion s.job.place.segtab.toNat s.job.segs.length) :=
      ⟨hi, hs, hwork, hout, rfl⟩
    refine ⟨endWalkWith_tooLarge hr, fun hw hunfit => ?unfit, fun hw hfitWork hfitOut hfitTable => ?fits⟩
    case unfit =>
      exact endWalkWith_unfit hr hw (Bool.eq_false_iff.2 fun hf => hunfit ((allocationFits_iff _ _ _).1 hf))
    case fits =>
      have hf := (allocationFits_iff _ _ (tableRegion _ _)).2 ⟨hfitWork, hfitOut, hfitTable⟩
      refine ⟨fun hover => ?overlap, fun hapart => ?launch⟩
      case overlap =>
        exact endWalkWith_overlapping hr hw hf (Bool.eq_false_iff.2 fun h => hover ((allocationDisjoint_iff _ _ _ _).1 h))
      case launch =>
        exact ⟨memWrites (tableBytes s.job.segs) s.job.place.segtab, fmt0Word hd, fmt1Word hd,
          (memWrites_length _ _).trans (tableBytes_length _), fun i j g hg hj => tableWrites_get _ hg hj,
          fmt0Word_toNat hd, fmt1Word_toNat hd,
          endWalkWith_launches hr hw hf ((allocationDisjoint_iff _ _ _ _).2 hapart)⟩
  case result =>
    rw [step_takeResult hm]
    exact ⟨fun hst => congrArg _ (takeResult_done (s := popHost s) hp hst),
      fun hst => congrArg _ (takeResult_error (s := popHost s) hp hst)⟩

end Sys2Proof.Machine
end

section
/-! PROOFS. The canonical codes as strings of bits (42_huffman R92, R94): the code of a symbol, how far the codes of a length
reach into the code space, and that no code begins another. -/

namespace Sys2Proof.Machine

/-! ### Bits, most significant first -/

/-- The number a string of code bits writes, the first bit the most significant one (R93). -/
def codeValue (w : List Bool) : Nat := bitsValue w.reverse

@[simp] theorem codeValue_nil : codeValue [] = 0 := rfl

theorem codeValue_concat (w : List Bool) (b : Bool) : codeValue (w ++ [b]) = codeValue w * 2 + b.toNat := by
  simp only [codeValue, List.reverse_append, List.reverse_singleton, List.singleton_append, bitsValue]
  omega

theorem bitsValue_append (a b : List Bool) : bitsValue (a ++ b) = bitsValue a + 2 ^ a.length * bitsValue b := by
  induction a with
  | nil => simp [bitsValue]
  | cons x a ih => simp only [List.cons_append, bitsValue, ih, List.length_cons, pow_succ]; ring

theorem codeValue_append (w x : List Bool) : codeValue (w ++ x) = 2 ^ x.length * codeValue w + codeValue x := by
  rw [codeValue, List.reverse_append, bitsValue_append, List.length_reverse, Nat.add_comm]; rfl

theorem codeValue_lt (w : List Bool) : codeValue w < 2 ^ w.length := by
  rw [codeValue, ← List.length_reverse]; exact bitsValue_lt w.reverse

@[simp] theorem codeBits_length (code l : Nat) : (codeBits code l).length = l := by
  induction l with
  | zero => rfl
  | succ l ih => rw [codeBits, List.length_cons, ih]

theorem codeBits_concat (code : Nat) (b : Bool) (l : Nat) :
    codeBits (code * 2 + b.toNat) (l + 1) = codeBits code l ++ [b] := by
  have hhalf : (code * 2 + b.toNat) / 2 = code := by
    have hb := b.toNat_le
    omega
  have hlow : (code * 2 + b.toNat).testBit 0 = b := by cases b <;> simp
  induction l with
  | zero => rw [codeBits, codeBits, hlow]; rfl
  | succ l ih => rw [codeBits, ih, Nat.testBit_succ, hhalf]; rfl

/-- The bits of a string's number are the string. -/
theorem codeBits_codeValue (w : List Bool) : codeBits (codeValue w) w.length = w := by
  induction w using List.reverseRecOn with
  | nil => rfl
  | append_singleton w b ih => rw [codeValue_concat, List.length_append, List.length_singleton, codeBits_concat, ih]

/-- The number of a code's low bits. -/
theorem codeValue_codeBits (code l : Nat) : codeValue (codeBits code l) = code % 2 ^ l := by
  induction l with
  | zero => simp [codeBits, Nat.mod_one]
  | succ l ih =>
    have hcons : codeBits code (l + 1) = [code.testBit l] ++ codeBits code l := rfl
    have hbit : codeValue [code.testBit l] = (code.testBit l).toNat := by simpa using codeValue_concat [] (code.testBit l)
    rw [hcons, codeValue_append, ih, codeBits_length, hbit, Nat.toNat_testBit, Nat.mod_pow_succ, Nat.add_comm]

/-! ### The codes of a length -/

theorem lengthCount_eq_count {l : Nat} (lens : List Nat) (hl : l ≠ 0) : lengthCount lens l = lens.count l := if_neg hl

theorem getD_eq_iff_getElem? {lens : List Nat} {v l : Nat} (hl : l ≠ 0) : lens.getD v 0 = l ↔ lens[v]? = some l := by
  rw [List.getD_eq_getElem?_getD]
  cases lens[v]? with
  | none => simpa using hl.symm
  | some x => simp

/-- The place of a symbol among the symbols of its length: how many of them stand before it. -/
theorem symbolsOfLength_index {lens : List Nat} {l v j : Nat} :
    (symbolsOfLength l lens 0)[j]? = some v ↔ lens[v]? = some l ∧ (lens.take v).count l = j := by
  constructor
  · intro h
    have hv : lens[v]? = some l := (mem_symbolsOfLength.1 (List.mem_of_getElem? h)).2
    have hplace := symbolsOfLength_get 0 hv
    rw [Nat.zero_add] at hplace
    have hnodup : (symbolsOfLength l lens 0).Nodup := (symbolsOfLength_sorted l lens 0).imp Nat.ne_of_lt
    exact ⟨hv, (List.getElem?_inj (List.getElem?_eq_some_iff.1 hplace).1 hnodup).1 (hplace.trans h.symm)⟩
  · rintro ⟨hv, rfl⟩
    simpa using symbolsOfLength_get 0 hv

theorem firstCode_le_canonicalCode (lens : List Nat) (v : Nat) : firstCode lens (lens.getD v 0) ≤ canonicalCode lens v :=
  Nat.le_add_right _ _

theorem canonicalCode_lt {lens : List Nat} {v : Nat} (hv : lens.getD v 0 ≠ 0) :
    canonicalCode lens v < firstCode lens (lens.getD v 0) + lengthCount lens (lens.getD v 0) := by
  have hplace := symbolsOfLength_index.2 ⟨(getD_eq_iff_getElem? hv).1 rfl, rfl⟩
  have hlt := (List.getElem?_eq_some_iff.1 hplace).1
  rw [symbolsOfLength_length] at hlt
  rw [canonicalCode, lengthCount_eq_count lens hv]
  exact Nat.add_lt_add_left hlt _

/-- The codes of a longer length begin after all the codes of a shorter one (R94). -/
theorem codes_end_le_firstCode (lens : List Nat) (l d : Nat) :
    2 ^ (d + 1) * (firstCode lens l + lengthCount lens l) ≤ firstCode lens (l + d + 1) := by
  induction d with
  | zero => exact (Nat.mul_comm _ _).le
  | succ d ih =>
    calc 2 ^ (d + 2) * (firstCode lens l + lengthCount lens l)
        = 2 ^ (d + 1) * (firstCode lens l + lengthCount lens l) * 2 := by ring
      _ ≤ (firstCode lens (l + d + 1) + lengthCount lens (l + d + 1)) * 2 :=
          Nat.mul_le_mul_right 2 (ih.trans (Nat.le_add_right _ _))

/-! ### The code space -/

/-- One symbol more takes the codes that begin with its own out of the code space of each length. -/
theorem codes_end_cons (x : Nat) (lens : List Nat) (l : Nat) :
    firstCode (x :: lens) l + lengthCount (x :: lens) l
      = firstCode lens l + lengthCount lens l + if x ≠ 0 ∧ x ≤ l then 2 ^ (l - x) else 0 := by
  induction l with
  | zero => simp [firstCode, lengthCount]
  | succ l ih =>
    rw [firstCode, firstCode, ih, lengthCount_eq_count _ l.succ_ne_zero, lengthCount_eq_count _ l.succ_ne_zero,
      List.count_cons]
    rcases Nat.lt_trichotomy x (l + 1) with hx | rfl | hx
    · have hpow : 2 ^ (l + 1 - x) = 2 ^ (l - x) * 2 := by rw [← pow_succ]; congr 1; omega
      simp only [hpow, Nat.le_of_lt_succ hx, hx.le, beq_iff_eq, hx.ne, and_true, if_false]
      split
      · ring
      · rfl
    · simp; omega
    · simp [hx.ne', Nat.not_le.2 hx, Nat.not_le.2 (Nat.lt_of_succ_lt hx)]

theorem codes_end_le_sum {m l : Nat} (lens : List Nat) (hl : l ≤ m) :
    (firstCode lens l + lengthCount lens l) * 2 ^ (m - l) ≤ ((lens.filter (· ≠ 0)).map fun x => 2 ^ (m - x)).sum := by
  induction lens with
  | nil =>
    have hzero : firstCode [] l = 0 := by
      induction l with
      | zero => rfl
      | succ l ih => rw [firstCode, ih (by omega)]; simp [lengthCount]
    simp [hzero, lengthCount]
  | cons x lens ih =>
    rw [codes_end_cons, Nat.add_mul]
    by_cases hx : x = 0
    · simpa [hx] using ih
    · have hterm : (if x ≠ 0 ∧ x ≤ l then 2 ^ (l - x) else 0) * 2 ^ (m - l) ≤ 2 ^ (m - x) := by
        split
        · rw [← pow_add]; exact Nat.pow_le_pow_right (by decide) (by omega)
        · simp
      rw [List.filter_cons_of_pos (by simpa using hx), List.map_cons, List.sum_cons, Nat.add_comm]
      exact Nat.add_le_add hterm ih

/-- Lengths that do not over-subscribe the code space: the codes of a length are numbers of that many bits (R94). -/
theorem codes_end_le {m l : Nat} {lens : List Nat} (hkraft : kraft m lens) (hl : l ≤ m) :
    firstCode lens l + lengthCount lens l ≤ 2 ^ l := by
  have h := (codes_end_le_sum lens hl).trans hkraft
  rw [← Nat.add_sub_cancel' hl, pow_add, Nat.add_sub_cancel_left] at h
  exact Nat.le_of_mul_le_mul_right h (Nat.two_pow_pos _)

/-! ### The code of a symbol -/

/-- `w` is the canonical code of the present symbol `v` (R94). -/
def HasCode (lens : List Nat) (v : Nat) (w : List Bool) : Prop :=
  lens.getD v 0 ≠ 0 ∧ codeBits (canonicalCode lens v) (lens.getD v 0) = w

theorem HasCode.length {lens : List Nat} {v : Nat} {w : List Bool} (h : HasCode lens v w) : lens.getD v 0 = w.length := by
  rw [← h.2, codeBits_length]

theorem HasCode.length_mem {lens : List Nat} {v : Nat} {w : List Bool} (h : HasCode lens v w) : lens.getD v 0 ∈ lens :=
  List.mem_of_getElem? ((getD_eq_iff_getElem? h.1).1 rfl)

theorem HasCode.ne_nil {lens : List Nat} {v : Nat} {w : List Bool} (h : HasCode lens v w) : w ≠ [] :=
  fun hw => h.1 (h.length.trans (congrArg List.length hw))

/-- A string that writes a symbol's code on that symbol's length is its code. -/
theorem hasCode_of_codeValue {lens : List Nat} {v : Nat} {w : List Bool} (hw : w ≠ []) (hl : lens.getD v 0 = w.length)
    (hcode : canonicalCode lens v = codeValue w) : HasCode lens v w :=
  ⟨hl ▸ mt List.length_eq_zero_iff.1 hw, by rw [hcode, hl, codeBits_codeValue]⟩

section
variable {m : Nat} {lens : List Nat} (hmax : ∀ l ∈ lens, l ≤ m) (hkraft : kraft m lens)
include hmax hkraft

theorem HasCode.codeValue_eq {v : Nat} {w : List Bool} (h : HasCode lens v w) : codeValue w = canonicalCode lens v := by
  have hle : lens.getD v 0 ≤ m := hmax _ h.length_mem
  rw [← h.2, codeValue_codeBits]
  exact Nat.mod_eq_of_lt ((canonicalCode_lt h.1).trans_le (codes_end_le hkraft hle))

/-- No two symbols share a code (R94). -/
theorem HasCode.symbol_unique {u v : Nat} {w : List Bool} (hu : HasCode lens u w) (hv : HasCode lens v w) : u = v := by
  have hl : lens.getD u 0 = lens.getD v 0 := hu.length.trans hv.length.symm
  have hcount : (lens.take u).count (lens.getD v 0) = (lens.take v).count (lens.getD v 0) := by
    have hcodes := (hu.codeValue_eq hmax hkraft).symm.trans (hv.codeValue_eq hmax hkraft)
    rw [canonicalCode, canonicalCode, hl] at hcodes
    exact Nat.add_left_cancel hcodes
  have hplace := symbolsOfLength_index.2 ⟨(getD_eq_iff_getElem? hv.1).1 hl, hcount⟩
  have hplace' := symbolsOfLength_index.2 ⟨(getD_eq_iff_getElem? hv.1).1 rfl, rfl⟩
  exact Option.some.inj (hplace.symm.trans hplace')

/-- No code begins another (R94): a string that goes on after a code stays below the first code of its length. -/
theorem HasCode.eq_nil_of_append {u v : Nat} {w x : List Bool} (hu : HasCode lens u w) (hv : HasCode lens v (w ++ x)) :
    x = [] := by
  rcases x with _ | ⟨b, x⟩
  · rfl
  exfalso
  have hend : codeValue w + 1 ≤ firstCode lens w.length + lengthCount lens w.length := by
    rw [hu.codeValue_eq hmax hkraft, ← hu.length]; exact canonicalCode_lt hu.1
  have hlt : codeValue (w ++ b :: x) < firstCode lens (w.length + x.length + 1) :=
    calc codeValue (w ++ b :: x) = 2 ^ (x.length + 1) * codeValue w + codeValue (b :: x) := codeValue_append _ _
      _ < 2 ^ (x.length + 1) * (codeValue w + 1) := Nat.add_lt_add_left (codeValue_lt (b :: x)) _
      _ ≤ 2 ^ (x.length + 1) * (firstCode lens w.length + lengthCount lens w.length) := Nat.mul_le_mul_left _ hend
      _ ≤ firstCode lens (w.length + x.length + 1) := codes_end_le_firstCode _ _ _
  have hfirst := firstCode_le_canonicalCode lens v
  rw [hv.length, List.length_append, ← hv.codeValue_eq hmax hkraft] at hfirst
  exact absurd hlt (Nat.not_lt.2 hfirst)

/-- Bits begin with at most one code. -/
theorem HasCode.eq_of_prefix {u v : Nat} {w x bits : List Bool} (hu : HasCode lens u w) (hv : HasCode lens v x)
    (hw : w <+: bits) (hx : x <+: bits) : u = v ∧ w = x := by
  have hwx : w = x := by
    rcases List.prefix_or_prefix_of_prefix hw hx with ⟨y, rfl⟩ | ⟨y, rfl⟩
    · rw [hu.eq_nil_of_append hmax hkraft hv, List.append_nil]
    · rw [hv.eq_nil_of_append hmax hkraft hu, List.append_nil]
  subst hwx
  exact ⟨hu.symbol_unique hmax hkraft hv, rfl⟩

end

end Sys2Proof.Machine
end

section
/-! PROOFS. The Huffman tables (42_huffman R92 to R96): the fields that `build` fills, and `decode` on a built table as the
search for the code that the bits left begin with. -/

namespace Sys2Proof.Machine

theorem fits_of_mem {k : TableShape} (hk : k ∈ [llShape, dtShape, cltShape]) : k.Fits := by
  simp only [List.mem_cons, List.not_mem_nil, or_false] at hk
  obtain rfl | rfl | rfl := hk
  · exact llShape_fits
  · exact dtShape_fits
  · exact cltShape_fits

/-! ### The longest length -/

/-- The longest length (R92, D12) bounds every length and is one of them, or 0. -/
theorem longestLength_spec (lens : List Nat) :
    (∀ l ∈ lens, l ≤ longestLength lens) ∧ (longestLength lens = 0 ∨ longestLength lens ∈ lens) := by
  have hmax : longestLength lens = lens.max?.getD 0 := List.foldl_max.trans (Nat.zero_max _)
  rw [hmax]
  cases h : lens.max? with
  | none =>
    rw [List.max?_eq_none_iff.1 h]
    exact ⟨nofun, .inl rfl⟩
  | some m =>
    obtain ⟨hmem, hle⟩ := List.max?_eq_some_iff.1 h
    exact ⟨hle, .inr hmem⟩

theorem longestLength_le {lens : List Nat} {m : Nat} (h : ∀ l ∈ lens, l ≤ m) : longestLength lens ≤ m := by
  rcases (longestLength_spec lens).2 with hzero | hmem
  · exact hzero.trans_le (Nat.zero_le m)
  · exact h _ hmem

theorem build_max {k : TableShape} (hk : k.Fits) {lens : List Nat} (d : Nat) (hmax : ∀ l ∈ lens, l ≤ k.longest) :
    (build k lens d).max.toNat = longestLength lens := by
  rw [build, BitVec.toNat_ofNat]
  exact Nat.mod_eq_of_lt ((longestLength_le hmax).trans_lt hk.len)

/-! ### The other fields -/

theorem build_n {k : TableShape} (hk : k.Fits) {lens : List Nat} (d : Nat) (hn : lens.length ≤ k.cap) :
    (build k lens d).n.toNat = lens.length := by
  rw [build, BitVec.toNat_ofNat]
  exact Nat.mod_eq_of_lt (hn.trans_lt hk.count)

theorem build_len {k : TableShape} (hk : k.Fits) {lens : List Nat} (d : Nat) {v : Nat} (hn : lens.length ≤ k.cap)
    (hmax : ∀ l ∈ lens, l ≤ k.longest) (hv : v < lens.length) :
    ((build k lens d).len.toList.getD v 0).toNat = lens.getD v 0 := by
  have hlen : lens.getD v 0 ≤ k.longest := by
    rw [List.getD_eq_getElem lens 0 hv]; exact hmax _ (List.getElem_mem hv)
  rw [build, tableArray_getD, if_pos (hv.trans_le hn), if_pos hv, BitVec.toNat_ofNat]
  exact Nat.mod_eq_of_lt (hlen.trans_lt hk.len)

/-- The symbols up to a length, counted. -/
theorem sortedSymbols_length_eq_countP (lens : List Nat) (m : Nat) :
    (sortedSymbols lens m).length = lens.countP fun l => l ≠ 0 ∧ l ≤ m := by
  induction m with
  | zero => simp [sortedSymbols]
  | succ m ih =>
    rw [sortedSymbols_length, ih, lengthCount_eq_count lens m.succ_ne_zero]
    clear ih
    induction lens with
    | nil => rfl
    | cons x lens ih =>
      rw [List.countP_cons, List.countP_cons, List.count_cons, ← ih]
      by_cases hx : x = m + 1
      · simp [hx]; omega
      · have hle : x ≤ m + 1 ↔ x ≤ m := by omega
        simp [hx, hle]; omega

theorem sortedSymbols_length_of_le {lens : List Nat} {m : Nat} (hmax : ∀ l ∈ lens, l ≤ m) :
    (sortedSymbols lens m).length = (lens.filter (· ≠ 0)).length := by
  rw [sortedSymbols_length_eq_countP, ← List.countP_eq_length_filter]
  refine List.countP_congr fun l hl => ?_
  simp [hmax l hl]

/-- The entries of `sym[]` that `build` places are the present symbols in order (R92). -/
theorem build_placed {k : TableShape} (hk : k.Fits) {lens : List Nat} (d : Nat) (hn : lens.length ≤ k.cap)
    (hmax : ∀ l ∈ lens, l ≤ k.longest) :
    ((build k lens d).sym.toList.take (lens.filter (· ≠ 0)).length).map BitVec.toNat = sortedSymbols lens k.longest := by
  have hcap := (sortedSymbols_le lens k.longest).trans hn
  rw [← sortedSymbols_length_of_le hmax]
  refine List.ext_getElem? fun i => ?_
  by_cases hi : i < (sortedSymbols lens k.longest).length
  · have hsize : i < (build k lens d).sym.toList.length := by rw [Vector.length_toList]; exact hi.trans_le hcap
    rw [build_symAt hk d hn hi, HuffTable.symAt, List.getElem?_map, List.getElem?_take_of_lt hi,
      List.getD_eq_getElem _ _ hsize, List.getElem?_eq_getElem hsize, Option.map_some]
  · rw [List.getElem?_eq_none (by simp; omega), List.getElem?_eq_none (by omega)]

/-- "Sorted by (length, original index)" (R92). -/
theorem sortedSymbols_sorted (lens : List Nat) (m : Nat) :
    (sortedSymbols lens m).Pairwise fun u v =>
      lens.getD u 0 < lens.getD v 0 ∨ (lens.getD u 0 = lens.getD v 0 ∧ u < v) := by
  have hlen : ∀ {v l : Nat}, lens[v]? = some l → lens.getD v 0 = l := fun h => by
    rw [List.getD_eq_getElem?_getD, h, Option.getD_some]
  induction m with
  | zero => exact .nil
  | succ m ih =>
    refine List.pairwise_append.2 ⟨ih, ?_, fun u hu v hv => ?_⟩
    · refine (symbolsOfLength_sorted (m + 1) lens 0).imp_of_mem fun hu hv huv => .inr ⟨?_, huv⟩
      exact (hlen (mem_symbolsOfLength.1 hu).2).trans (hlen (mem_symbolsOfLength.1 hv).2).symm
    · obtain ⟨l, -, hl, hu⟩ := mem_sortedSymbols.1 hu
      have hv : lens.getD v 0 = m + 1 := hlen (mem_symbolsOfLength.1 hv).2
      rw [hlen hu, hv]
      exact .inl (Nat.lt_succ_of_le hl)

theorem mem_sortedSymbols_iff_getD {lens : List Nat} {m v : Nat} (hmax : ∀ l ∈ lens, l ≤ m) :
    v ∈ sortedSymbols lens m ↔ lens.getD v 0 ≠ 0 := by
  rw [mem_sortedSymbols]
  constructor
  · rintro ⟨l, hpos, -, hv⟩
    rw [(getD_eq_iff_getElem? (by omega)).2 hv]; omega
  · intro hv
    have hget := (getD_eq_iff_getElem? hv).1 rfl
    exact ⟨_, by omega, hmax _ (List.mem_of_getElem? hget), hget⟩

/-- Settles O20: field by field; the placed entries are `sortedSymbols`. -/
theorem buildSortsSymbols : Obligations.BuildSortsSymbols := by
  intro k hk lens d placed hn hmax hplaced
  have hfits := fits_of_mem hk
  rw [build_placed hfits d hn hmax] at hplaced
  subst hplaced
  rw [build_max hfits d hmax]
  obtain ⟨hle, hmem⟩ := longestLength_spec lens
  refine ⟨build_n hfits d hn, fun v hv => build_len hfits d hn hmax hv, fun l hl => ?_, hle, hmem,
    fun v => mem_sortedSymbols_iff_getD hmax, sortedSymbols_sorted lens k.longest⟩
  exact (build_countAt hfits d l hn).trans (if_pos hl)

/-! ### Decode on a built table -/

theorem fetchBit_end_cursor {s : State} (ht : tableReadable s) (h : restBits s = []) :
    ∃ c : Cursor, fetchBit s = .raise .truncatedInput { s with cur := c } := by
  obtain ⟨t, hfetch, hmoves⟩ := fetchBit_end ht h
  exact ⟨t.cur, by rw [hfetch]; exact congrArg _ hmoves⟩

/-- The loop of `decode` on a built table with the bits `w` read and `j` lengths left (R93). -/
def decodeAfter (k : TableShape) (lens : List Nat) (d j : Nat) (w : List Bool) (s : State) : Run Nat :=
  huffDecodeFrom (build k lens d) j (w.length + 1) (codeValue w * 2) (firstCode lens w.length)
    (sortedSymbols lens w.length).length s

theorem huffDecode_eq_decodeAfter (k : TableShape) (lens : List Nat) (d : Nat) (s : State) :
    huffDecode (build k lens d) s = decodeAfter k lens d (build k lens d).max.toNat [] s := rfl

/-- What a search of the bits left for `j` bits or fewer that complete a code after `w` answers (R94): the symbol of the code
found, or an error where there is none. -/
def SearchesCode (lens : List Nat) (j : Nat) (w : List Bool) (s : State) (r : Run Nat) : Prop :=
  (∃ v x c, r = .ok v { s with cur := c } ∧ restBits s = x ++ restBits { s with cur := c } ∧ HasCode lens v (w ++ x))
    ∨ ((∀ v x, x <+: restBits s → x.length ≤ j → ¬ HasCode lens v (w ++ x))
      ∧ ∃ c, r = .raise (if j ≤ (restBits s).length then .corruptHuffmanStream else .truncatedInput) { s with cur := c })

/-- A code lies in its length's range, so it passes the test of `decode` (R93). -/
theorem HasCode.in_range {m : Nat} {lens : List Nat} (hmax : ∀ l ∈ lens, l ≤ m) (hkraft : kraft m lens) {v : Nat}
    {w : List Bool} (h : HasCode lens v w) :
    firstCode lens w.length ≤ codeValue w ∧ codeValue w - firstCode lens w.length < lengthCount lens w.length := by
  have hge := firstCode_le_canonicalCode lens v
  have hlt := canonicalCode_lt h.1
  rw [h.codeValue_eq hmax hkraft, ← h.length]
  omega

section
variable {k : TableShape} (hk : k.Fits) {lens : List Nat} (d : Nat) (hn : lens.length ≤ k.cap)
include hk hn

/-- A string in its length's range is the code of the symbol that the table holds at that place (R92, R94). -/
theorem hasCode_symAt {w : List Bool} {l : Nat} (hl : l + 1 ≤ k.longest) (hw : w.length = l + 1)
    (hge : firstCode lens (l + 1) ≤ codeValue w) (hlt : codeValue w - firstCode lens (l + 1) < lengthCount lens (l + 1)) :
    HasCode lens ((build k lens d).symAt ((sortedSymbols lens l).length + (codeValue w - firstCode lens (l + 1)))) w := by
  obtain ⟨hget, hplace⟩ := symbolsOfLength_index.1 (build_sym hk d hn hl hlt)
  have hlen := (getD_eq_iff_getElem? l.succ_ne_zero).2 hget
  refine hasCode_of_codeValue (by rintro rfl; cases hw) (hlen.trans hw.symm) ?_
  rw [canonicalCode, hlen, hplace, Nat.add_sub_cancel' hge]

variable (hmax : ∀ l ∈ lens, l ≤ k.longest) (hkraft : kraft k.longest lens)
include hmax hkraft

/-- One turn of the loop (R93): the bit read completes a code, or the loop goes on after it. -/
theorem decodeAfter_turn {j : Nat} {w bits : List Bool} {b : Bool} {s : State} (ht : tableReadable s)
    (hr : restBits s = b :: bits) (hl : w.length + 1 ≤ k.longest) :
    ∃ c : Cursor, restBits { s with cur := c } = bits
      ∧ ((∃ v, HasCode lens v (w ++ [b]) ∧ decodeAfter k lens d (j + 1) w s = .ok v { s with cur := c })
        ∨ ((∀ v, ¬ HasCode lens v (w ++ [b]))
          ∧ decodeAfter k lens d (j + 1) w s = decodeAfter k lens d j (w ++ [b]) { s with cur := c })) := by
  obtain ⟨c, hfetch, hrest⟩ := fetchBit_rest ht hr
  have hw : (w ++ [b]).length = w.length + 1 := List.length_append
  have hcount : ∀ l, l ≤ k.longest → (build k lens d).countAt l = lengthCount lens l := fun l hl => by
    rw [build_countAt hk d l hn, if_pos hl]
  have hfirst : (firstCode lens w.length + lengthCount lens w.length) * 2 = firstCode lens (w.length + 1) := rfl
  refine ⟨c, hrest, ?_⟩
  rw [decodeAfter, huffDecodeFrom, hfetch, Run.bind_ok]
  simp only [Nat.add_sub_cancel, hcount _ hl, hcount _ (Nat.le_of_succ_le hl), ← codeValue_concat, hfirst]
  split
  next htest => exact .inl ⟨_, hasCode_symAt hk d hn hl hw htest.1 htest.2, rfl⟩
  next htest =>
    refine .inr ⟨fun v hv => htest (hw ▸ hv.in_range hmax hkraft), ?_⟩
    rw [decodeAfter, hw, ← sortedSymbols_length]

theorem decodeAfter_searchesCode (j : Nat) {w : List Bool} {s : State} (ht : tableReadable s)
    (hl : w.length + j ≤ k.longest) (hnone : ∀ v, ¬ HasCode lens v w) :
    SearchesCode lens j w s (decodeAfter k lens d j w s) := by
  induction j generalizing w s with
  | zero =>
    refine .inr ⟨fun v x _ hx => ?_, s.cur, by rw [if_pos (Nat.zero_le _)]; rfl⟩
    rw [List.length_eq_zero_iff.1 (Nat.le_zero.1 hx), List.append_nil]
    exact hnone v
  | succ j ih =>
    match hr : restBits s with
    | [] =>
      obtain ⟨c, hfetch⟩ := fetchBit_end_cursor ht hr
      refine .inr ⟨fun v x hx _ => ?_, c, by rw [decodeAfter, huffDecodeFrom, hfetch, Run.bind_raise, hr]; rfl⟩
      rw [hr] at hx
      rw [List.prefix_nil.1 hx, List.append_nil]
      exact hnone v
    | b :: bits =>
      obtain ⟨c, hrest, ⟨v, hcode, hrun⟩ | ⟨hnone', hrun⟩⟩ :=
        decodeAfter_turn hk d hn hmax hkraft (j := j) (w := w) ht hr (by omega)
      · exact .inl ⟨v, [b], c, hrun, by rw [hr, hrest]; rfl, hcode⟩
      · have hl' : (w ++ [b]).length + j ≤ k.longest := by simp; omega
        rw [hrun]
        rcases ih (s := { s with cur := c }) ht hl' hnone' with ⟨v, x, c', hrun', hx, hcode⟩ | ⟨hno, c', hrun'⟩
        · refine .inl ⟨v, b :: x, c', hrun', ?_, by simpa using hcode⟩
          rw [hr, ← hrest, hx]; rfl
        · refine .inr ⟨fun v x hx hlen => ?_, c', by rw [hrun', hrest, hr]; simp⟩
          rw [hr] at hx
          rcases List.prefix_cons_iff.1 hx with rfl | ⟨y, rfl, hy⟩
          · rw [List.append_nil]; exact hnone v
          · simpa using hno v y (hrest ▸ hy) (Nat.le_of_succ_le_succ hlen)

/-- `decode` on a built table searches the bits left for a code as long as the longest one (R94). -/
theorem huffDecode_searchesCode {s : State} (ht : tableReadable s) :
    SearchesCode lens (build k lens d).max.toNat [] s (huffDecode (build k lens d) s) := by
  rw [huffDecode_eq_decodeAfter]
  refine decodeAfter_searchesCode hk d hn hmax hkraft _ ht ?_ fun v h => h.ne_nil rfl
  rw [build_max hk d hmax, List.length_nil, Nat.zero_add]
  exact longestLength_le hmax

/-- The bits left begin with a code: `decode` answers its symbol and consumes it (R94). -/
theorem huffDecode_ok {s : State} {v : Nat} {x rest : List Bool} (ht : tableReadable s) (hcode : HasCode lens v x)
    (hrest : restBits s = x ++ rest) :
    ∃ c : Cursor, huffDecode (build k lens d) s = .ok v { s with cur := c } ∧ restBits { s with cur := c } = rest := by
  have hx : x <+: restBits s := ⟨rest, hrest.symm⟩
  rcases huffDecode_searchesCode hk d hn hmax hkraft ht with ⟨u, y, c, hrun, hrest', hcode'⟩ | ⟨hno, -⟩
  · obtain ⟨rfl, rfl⟩ := hcode.eq_of_prefix hmax hkraft hcode' hx ⟨_, hrest'.symm⟩
    exact ⟨c, hrun, List.append_cancel_left (hrest'.symm.trans hrest)⟩
  · have hle : x.length ≤ (build k lens d).max.toNat := by
      rw [build_max hk d hmax, ← hcode.length]
      exact (longestLength_spec lens).1 _ hcode.length_mem
    exact absurd hcode (hno v x hx hle)

/-- The bits left begin with no code: `decode` raises, by whether the longest code's bits are left (R93, R94). -/
theorem huffDecode_raise {s : State} (ht : tableReadable s) (hnone : ∀ v x, x <+: restBits s → ¬ HasCode lens v x) :
    ∃ c : Cursor, huffDecode (build k lens d) s
      = .raise (if (build k lens d).max.toNat ≤ (restBits s).length then .corruptHuffmanStream else .truncatedInput)
          { s with cur := c } := by
  rcases huffDecode_searchesCode hk d hn hmax hkraft ht with ⟨v, x, c, -, hrest, hcode⟩ | ⟨-, hraise⟩
  · exact absurd hcode (hnone v x ⟨_, hrest.symm⟩)
  · exact hraise

end

/-- Settles O21: `decode` is the search for a code that the bits left begin with. -/
theorem canonicalDecode : Obligations.CanonicalDecode := by
  intro k hk lens d s hn hmax hkraft ht
  have hfits := fits_of_mem hk
  refine ⟨fun v => ⟨?decoded, ?code⟩, ?corrupt, ?noCode⟩
  case decoded =>
    rintro ⟨c, hv, -⟩
    rcases huffDecode_searchesCode hfits d hn hmax hkraft ht with ⟨u, x, c', hrun, hrest, hcode⟩ | ⟨-, c', hrun⟩
    · cases hv.symm.trans hrun
      exact ⟨hcode.1, hcode.2 ▸ ⟨_, hrest.symm⟩⟩
    · cases hv.symm.trans hrun
  case code =>
    rintro ⟨hpresent, rest, hrest⟩
    obtain ⟨c, hrun, hrest'⟩ := huffDecode_ok hfits d hn hmax hkraft ht ⟨hpresent, rfl⟩ hrest.symm
    exact ⟨c, hrun, by rw [hrest', ← hrest, List.drop_left' (codeBits_length _ _)]⟩
  case corrupt =>
    rintro ⟨c, hraise⟩
    have hnone : ∀ v x, x <+: restBits s → ¬ HasCode lens v x := by
      rintro v x ⟨rest, hrest⟩ hcode
      obtain ⟨c', hrun, -⟩ := huffDecode_ok hfits d hn hmax hkraft ht hcode hrest.symm
      cases hraise.symm.trans hrun
    obtain ⟨c', hrun⟩ := huffDecode_raise hfits d hn hmax hkraft ht hnone
    refine ⟨?_, fun v hpresent hpre => hnone v _ hpre ⟨hpresent, rfl⟩⟩
    by_contra hshort
    rw [if_neg hshort] at hrun
    cases hraise.symm.trans hrun
  case noCode =>
    rintro ⟨hleft, hnone⟩
    have hnone' : ∀ v x, x <+: restBits s → ¬ HasCode lens v x := fun v x hx hcode =>
      hnone v hcode.1 (hcode.2 ▸ hx)
    simpa only [if_pos hleft] using huffDecode_raise hfits d hn hmax hkraft ht hnone'

/-! ### A single code of one bit -/

/-- Lengths with one present symbol: no length before its own and none after it. -/
theorem eq_replicate_of_single {lens : List Nat} {v l : Nat} (hl : l ≠ 0) (hv : lens.getD v 0 = l)
    (hother : ∀ u, u ≠ v → lens.getD u 0 = 0) :
    lens = List.replicate v 0 ++ l :: List.replicate (lens.length - (v + 1)) 0 := by
  obtain ⟨hlt, hget⟩ := List.getElem?_eq_some_iff.1 ((getD_eq_iff_getElem? hl).1 hv)
  have hzero : ∀ (u : Nat) (hu : u < lens.length), u ≠ v → lens[u] = 0 := fun u hu hne => by
    rw [← List.getD_eq_getElem lens 0 hu, hother u hne]
  have hbefore : lens.take v = List.replicate v 0 := by
    refine List.eq_replicate_iff.2 ⟨List.length_take_of_le hlt.le, fun x hx => ?_⟩
    obtain ⟨u, hu, rfl⟩ := List.mem_take_iff_getElem.1 hx
    exact hzero u _ (by omega)
  have hafter : lens.drop (v + 1) = List.replicate (lens.length - (v + 1)) 0 := by
    refine List.eq_replicate_iff.2 ⟨List.length_drop, fun x hx => ?_⟩
    obtain ⟨u, hu, rfl⟩ := List.mem_drop_iff_getElem.1 hx
    exact hzero _ _ (by omega)
  rw [← hbefore, ← hafter, ← hget, ← List.drop_eq_getElem_cons hlt, List.take_append_drop]

section
variable {lens : List Nat} {v : Nat} (hv : lens.getD v 0 = 1) (hother : ∀ u, u ≠ v → lens.getD u 0 = 0)
include hv hother

theorem le_one_of_single : ∀ l ∈ lens, l ≤ 1 := by
  rw [eq_replicate_of_single one_ne_zero hv hother]
  intro l hl
  simp only [List.mem_append, List.mem_cons, List.mem_replicate] at hl
  omega

theorem kraft_of_single (m : Nat) : kraft m lens := by
  rw [eq_replicate_of_single one_ne_zero hv hother, kraft]
  simpa using Nat.pow_le_pow_right (by decide) (Nat.sub_le m 1)

/-- The single code is the bit 0 (R96). -/
theorem hasCode_single {u : Nat} {w : List Bool} : HasCode lens u w ↔ u = v ∧ w = [false] := by
  have hcode : codeBits (canonicalCode lens v) (lens.getD v 0) = [false] := by
    rw [canonicalCode, hv, List.count_eq_zero.2]
    · simp [firstCode, lengthCount, codeBits]
    · rw [eq_replicate_of_single one_ne_zero hv hother]
      simp
  constructor
  · rintro ⟨hu, rfl⟩
    obtain rfl : u = v := by_contra fun hne => hu (hother u hne)
    exact ⟨rfl, hcode⟩
  · rintro ⟨rfl, rfl⟩
    exact ⟨by omega, hcode⟩

end

/-- Settles O22: the search for the only code, the bit 0. -/
theorem singleCode : Obligations.SingleCode := by
  intro k hk lens d v b bits s hn hv hother ht hr
  have hfits := fits_of_mem hk
  have hlongest : 1 ≤ k.longest := by
    simp only [List.mem_cons, List.not_mem_nil, or_false] at hk
    obtain rfl | rfl | rfl := hk <;> decide
  have hmax : ∀ l ∈ lens, l ≤ k.longest := fun l hl => (le_one_of_single hv hother l hl).trans hlongest
  have hkraft := kraft_of_single hv hother k.longest
  refine ⟨?_, ?_⟩
  · rintro rfl
    exact huffDecode_ok hfits d hn hmax hkraft ht ((hasCode_single hv hother).2 ⟨rfl, rfl⟩) hr
  · rintro rfl
    have hnone : ∀ u x, x <+: restBits s → ¬ HasCode lens u x := fun u x hx hcode => by
      obtain ⟨-, rfl⟩ := (hasCode_single hv hother).1 hcode
      rw [hr] at hx
      cases (List.cons_prefix_cons.1 hx).1
    have hleft : (build k lens d).max.toNat ≤ (restBits s).length := by
      rw [build_max hfits d hmax, hr, List.length_cons]
      exact (longestLength_le (le_one_of_single hv hother)).trans (Nat.le_add_left _ _)
    simpa only [if_pos hleft] using huffDecode_raise hfits d hn hmax hkraft ht hnone

end Sys2Proof.Machine
end

section
/-! PROOFS. What a read leaves of the stream, once for where it runs through and where it raises (40_bit_reader R77 to R80), and
the engine's step in the states that fetch no element. -/

namespace Sys2Proof.Machine

/-! ### The host's queue and the stream -/

@[simp] theorem tableReadable_tickHost (s : State) : tableReadable (tickHost s) ↔ tableReadable s := by
  rw [tickHost_eq]; rfl

@[simp] theorem restBits_tickHost (s : State) : restBits (tickHost s) = restBits s := by rw [tickHost_eq]; rfl

@[simp] theorem restBytes_tickHost (s : State) : restBytes (tickHost s) = restBytes s := by rw [tickHost_eq]; rfl

@[simp] theorem alignedBytes_tickHost (s : State) : alignedBytes (tickHost s) = alignedBytes s := by rw [tickHost_eq]; rfl

@[simp] theorem restBits_tickHost_withCur (s : State) (c : Cursor) :
    restBits { tickHost s with cur := c } = restBits { s with cur := c } := by rw [tickHost_eq]; rfl

@[simp] theorem restBytes_tickHost_withCur (s : State) (c : Cursor) :
    restBytes { tickHost s with cur := c } = restBytes { s with cur := c } := by rw [tickHost_eq]; rfl

/-! ### Running an operation, both ways at once -/

/-- An operation that can neither stop nor raise here runs through. -/
theorem Run.All.ok_of {α : Type} {P : α → State → Prop} {R : ErrorCode → State → Prop} {x : Run α} (h : x.All False P R)
    (hno : ∀ e t, ¬ R e t) : ∃ a t, x = .ok a t ∧ P a t := by
  cases x with
  | ok a t => exact ⟨a, t, rfl, h⟩
  | raise e t => exact (hno e t h).elim
  | fault f => exact h.elim
  | refuse r => exact h.elim

/-- An operation that can neither stop nor run through here raises. -/
theorem Run.All.raise_of {α : Type} {P : α → State → Prop} {R : ErrorCode → State → Prop} {x : Run α}
    (h : x.All False P R) (hno : ∀ a t, ¬ P a t) : ∃ e t, x = .raise e t ∧ R e t := by
  cases x with
  | ok a t => exact (hno a t h).elim
  | raise e t => exact ⟨e, t, rfl, h⟩
  | fault f => exact h.elim
  | refuse r => exact h.elim

theorem Run.bind_assoc {α β γ : Type} (x : Run α) (f : α → State → Run β) (g : β → State → Run γ) :
    (x.bind f).bind g = x.bind fun a s => (f a s).bind g := by
  cases x <;> rfl

/-- Bits are read exactly when they are there (R77). -/
theorem readBits_spec (n : Nat) {s : State} (ht : tableReadable s) :
    (readBits n s).All False
      (fun v t => MovesCursor s t ∧ n ≤ (restBits s).length ∧ v = bitsValue ((restBits s).take n)
        ∧ restBits t = (restBits s).drop n)
      (fun e t => e = .truncatedInput ∧ MovesCursor s t ∧ (restBits s).length < n) := by
  rcases le_or_gt n (restBits s).length with h | h
  · obtain ⟨c, hread, hrest⟩ := readBits_rest ⟨ht, h⟩
    rw [hread]
    exact ⟨.of s c, h, rfl, hrest⟩
  · obtain ⟨t, hread, hmoves⟩ := readBits_end ht h
    rw [hread]
    exact ⟨rfl, hmoves, h⟩

/-- A byte is read exactly when there is one (R79). -/
theorem readByte_spec {s : State} (ht : tableReadable s) :
    (readByte s).All False
      (fun b t => MovesCursor s t ∧ t.cur.bit = s.cur.bit ∧ ∃ a, restAddrs s = a :: restAddrs t ∧ b = s.mem.read a)
      (fun e t => e = .truncatedInput ∧ MovesCursor s t ∧ restAddrs s = []) := by
  match hr : restAddrs s with
  | [] =>
    obtain ⟨t, hread, hmoves⟩ := readByte_end ht (by rw [restBytes, hr]; rfl)
    rw [hread]
    exact ⟨rfl, hmoves, rfl⟩
  | a :: as =>
    obtain ⟨c, hread, hbit, hrest⟩ := readByte_addrs ht hr
    rw [hread]
    exact ⟨.of s c, hbit, a, by rw [hrest], rfl⟩

/-- Bytes are read exactly when they are there (R80). -/
theorem readBytes_spec (n : Nat) {s : State} (ht : tableReadable s) :
    (readBytes n s).All False
      (fun bs t => MovesCursor s t ∧ t.cur.bit = s.cur.bit ∧ bs.length = n
        ∧ ∃ as, restAddrs s = as ++ restAddrs t ∧ bs = as.map s.mem.read)
      (fun e t => e = .truncatedInput ∧ MovesCursor s t ∧ (restAddrs s).length < n) := by
  induction n generalizing s with
  | zero => exact ⟨.refl s, rfl, rfl, [], rfl, rfl⟩
  | succ n ih =>
    refine Run.All.bind ((readByte_spec ht).imp id (fun _ _ h => h) ?_) ?_
    · rintro e t ⟨he, hmoves, hnil⟩
      exact ⟨he, hmoves, by rw [hnil]; exact Nat.succ_pos n⟩
    rintro b u ⟨hu, hbit, a, haddrs, rfl⟩
    refine Run.All.bind ((ih (hu.tableReadable.2 ht)).imp id (fun _ _ h => h) ?_) ?_
    · rintro e t ⟨he, hmoves, hlen⟩
      exact ⟨he, hu.trans hmoves, by rw [haddrs]; exact Nat.succ_lt_succ hlen⟩
    · rintro bs t ⟨hmoves, hbit', hlen, as, haddrs', rfl⟩
      refine ⟨hu.trans hmoves, hbit'.trans hbit, congrArg (· + 1) hlen, a :: as, ?_, by rw [hu.mem]; rfl⟩
      rw [haddrs, haddrs']
      rfl

/-- Bytes read from the next byte boundary on (R78, R80). -/
theorem readAligned_spec (n : Nat) {s : State} (ht : tableReadable s) (hs : s.cur.sound) :
    (readBytes n (alignToByte s)).All False
      (fun bs t => MovesCursor s t ∧ t.cur.bit = 0 ∧ bs.length = n ∧ alignedBytes s = bs ++ restBytes t
        ∧ restAddrs t ⊆ restAddrs s)
      (fun e t => e = .truncatedInput ∧ MovesCursor s t ∧ (alignedBytes s).length < n) := by
  obtain ⟨ha, hbit⟩ := alignToByte_moves s
  have haddrs : restAddrs (alignToByte s) ⊆ restAddrs s := by
    unfold alignToByte
    split
    · exact List.Subset.refl _
    next hb =>
      rw [restAddrs_pass 0 (hs hb)]
      exact List.subset_cons_self _ _
  rw [← alignToByte_rest hs]
  refine (readBytes_spec n (ha.tableReadable.2 ht)).imp id ?_ ?_
  · rintro bs t ⟨hmoves, hbit', hlen, as, hsplit, rfl⟩
    refine ⟨ha.trans hmoves, hbit'.trans hbit, hlen, ?_, fun a h => haddrs ?_⟩
    · rw [restBytes, hsplit, List.map_append, restBytes, hmoves.mem]
    · rw [hsplit]
      exact List.mem_append_right as h
  · rintro e t ⟨he, hmoves, hlen⟩
    exact ⟨he, ha.trans hmoves, by rwa [restBytes, List.length_map]⟩

/-! ### The engine's step in a state that fetches no element -/

theorem goto_of_boundary {s : State} (st : EngineState) (h : s.phase = .boundary) : goto st s = { s with st := st } := by
  rw [goto, ← h]

theorem engineMoves.boundary {s : State} (h : engineMoves s) : (tickHost s).phase = .boundary := by
  rw [tickHost_phase]
  exact h.1

theorem step_engine {s : State} (hm : engineMoves s) : step s = (engineTurn (tickHost s)).outcome := by
  rw [step_eq, turn_engine hm]

theorem step_storedBlock {s : State} (hm : engineMoves s) (hst : s.st = .storedBlock) :
    step s = runStoredBlock (tickHost s) := by
  rw [step_engine hm, engineTurn, tickHost_st, hst]; rfl

theorem step_fixedTables {s : State} (hm : engineMoves s) (hst : s.st = .fixedTables) :
    step s = runFixedTables (tickHost s) := by
  rw [step_engine hm, engineTurn, tickHost_st, hst]; rfl

theorem step_dynamicTables {s : State} (hm : engineMoves s) (hst : s.st = .dynamicTables) :
    step s = runDynHeader (tickHost s) := by
  rw [step_engine hm, engineTurn, tickHost_st, hst]; rfl

theorem step_trailer {s : State} (hm : engineMoves s) (hst : s.st = .trailer) : step s = runTrailer (tickHost s) := by
  rw [step_engine hm, engineTurn, tickHost_st, hst]; rfl

theorem step_sizeCheck {s : State} (hm : engineMoves s) (hst : s.st = .sizeCheck) :
    step s = runSizeCheck (tickHost s) := by
  rw [step_engine hm, engineTurn, tickHost_st, hst]; rfl

/-- All code lengths are read: the step is the last part of DYNAMIC_TABLES (R113). -/
theorem step_lengthsComplete {s : State} (hp : s.phase = .clSymbols)
    (hn : s.dyn.nl.toNat = s.dyn.hlit.toNat + s.dyn.hdist.toNat) : step s = runDynFinish s := by
  rw [step_eq, turn_clSymbols hp, if_pos (by simpa [lengthsComplete] using hn)]
  rfl

end Sys2Proof.Machine
end

section
/-! PROOFS. The operations of 43_inflate_blocks that are one step each: tables, trailer and size check (R105, R113 to R115). -/

namespace Sys2Proof.Machine

/-- Settles O28: the two builds of R105, in a step that is at its boundary. -/
theorem fixedTablesOperation : Obligations.FixedTablesOperation := by
  intro s hm hst
  have hp : (buildTables fixedLitlenLengths fixedDistLengths (tickHost s)).phase = .boundary :=
    (buildTables_phase _ _ _).trans hm.boundary
  rw [step_fixedTables hm hst, runFixedTables, goto_of_boundary _ hp, buildTables, fixedLitlenLengths, fixedDistLengths]
  exact ⟨_, _, _, rfl⟩

/-- Settles O33: the two builds of R113, of the slices at HLIT. -/
theorem dynamicTablesSplit : Obligations.DynamicTablesSplit := by
  intro s hp hn
  exact ⟨_, _, _, step_lengthsComplete hp hn⟩

/-- Settles O34: four bytes are there after the alignment, or the read raises. -/
theorem trailerOperation : Obligations.TrailerOperation := by
  intro s hm hst ht hs
  have hread := readAligned_spec 4 ((tableReadable_tickHost s).2 ht) (by rwa [tickHost_cur])
  rw [alignedBytes_tickHost] at hread
  rw [step_trailer hm hst, runTrailer]
  refine ⟨fun hlen => ?truncated, fun hlen => ?read⟩
  case truncated =>
    obtain ⟨e, t, hx, rfl, hmoves, -⟩ := hread.raise_of fun bs t ⟨_, _, hbs, hsplit, _⟩ => by
      rw [hsplit, List.length_append] at hlen
      omega
    rw [hx, Run.bind_raise, Run.finish_raise, hmoves.enterError]
  case read =>
    obtain ⟨bs, t, hx, hmoves, hbit, hbs, hsplit, -⟩ := hread.ok_of fun e t ⟨_, _, h⟩ => by omega
    have hp : t.phase = .boundary := by rw [hmoves]; exact hm.boundary
    refine ⟨t.cur, ?_, hbit, ?_⟩
    · rw [hx, Run.bind_ok, Run.finish_ok, goto_of_boundary _ hp, hmoves]
    · rw [← restBytes_tickHost_withCur, ← show t = { tickHost s with cur := t.cur } from hmoves, hsplit, ← hbs,
        List.drop_left]

/-- Settles O35: the comparison of R115. -/
theorem sizeCheckOperation : Obligations.SizeCheckOperation := by
  intro s hm hst
  rw [step_sizeCheck hm hst, runSizeCheck]
  refine ⟨fun h => by rw [if_neg (by simpa using h), Run.finish_raise], fun h => ?_⟩
  rw [if_pos (by simpa using h), Run.finish_ok]
  exact congrArg _ (goto_of_boundary (s := { tickHost s with row := 0 }) .filter hm.boundary)

/-- Settles O30: `exec` of the row is R109's assignment. -/
theorem codeLengthElement : Obligations.CodeLengthElement := fun _ _ => rfl

end Sys2Proof.Machine
end

section
/-! PROOFS. The zlib header and the block headers (43_inflate_blocks R100, R101): the elements, and the operations as one step. -/

namespace Sys2Proof.Machine

/-! ### The elements -/

/-- FLG is there and ignored (R100). -/
theorem execZhdr_reads {cinfo : BitVec 4} {s : State} {flg : Byte} {rest : List Byte} (ht : tableReadable s)
    (h : restBytes s = flg :: rest) :
    ∃ c : Cursor, exec (.zhdr cinfo) s = .next { s with st := .blockHeader, phase := .boundary, cur := c }
      ∧ c.bit = s.cur.bit ∧ restBytes { s with cur := c } = rest := by
  obtain ⟨c, hread, hbit, hrest⟩ := readByte_rest ht h
  refine ⟨c, ?_, hbit, hrest⟩
  show execZhdr cinfo s = _
  rw [execZhdr, hread, Run.bind_ok, Run.finish_ok, goto]

/-- FLG is missing (R100). -/
theorem execZhdr_truncated {cinfo : BitVec 4} {s : State} (ht : tableReadable s) (h : restBytes s = []) :
    exec (.zhdr cinfo) s = .next (enterError .truncatedInput s) := by
  obtain ⟨t, hread, hmoves⟩ := readByte_end ht h
  show execZhdr cinfo s = _
  rw [execZhdr, hread, Run.bind_raise, Run.finish_raise, hmoves.enterError]

/-- Settles O26: FLG is read or missing; every other header element has one meaning, whatever the stream holds. -/
theorem headerElements : Obligations.HeaderElements :=
  ⟨fun _ _ _ _ => execZhdr_reads, fun _ _ => execZhdr_truncated, fun _ _ _ _ _ => ⟨rfl, rfl, rfl, rfl⟩,
    fun _ _ => ⟨rfl, rfl, rfl, rfl⟩⟩

/-! ### Operation ZLIB_HEADER -/

theorem decode_zlibCmf_eq (b : Byte) : decode .zlibCmf (BitVec.ofNat 40 b.toNat) = decodeZlibCmf (BitVec.ofNat 40 b.toNat) := by
  have hb := b.isLt
  refine if_neg (not_le.2 ?_)
  rw [BitVec.toNat_ofNat]
  exact (Nat.mod_le _ _).trans_lt hb

/-- CM is the low nibble of CMF (R56). -/
theorem cmf_method (b : Byte) : (BitVec.ofNat 40 b.toNat).extractLsb' 0 4 = 8#4 ↔ b.toNat % 16 = 8 := by
  have hb := b.isLt
  rw [field_eq_iff, BitVec.toNat_ofNat, BitVec.toNat_ofNat]
  omega

/-- A CMF byte of method 8 is ZHDR. -/
theorem decode_zlibCmf_method8 {b : Byte} (h : b.toNat % 16 = 8) :
    ∃ cinfo, decode .zlibCmf (BitVec.ofNat 40 b.toNat) = .ok (.zhdr cinfo) :=
  ⟨_, (decode_zlibCmf_eq b).trans (if_pos ((cmf_method b).2 h))⟩

/-- A CMF byte of another method is a row that fails. -/
theorem decode_zlibCmf_otherMethod {b : Byte} (h : b.toNat % 16 ≠ 8) :
    ∃ i, decode .zlibCmf (BitVec.ofNat 40 b.toNat) = .ok i ∧ ∀ s, exec i s = badCompressionMethod s := by
  rw [decode_zlibCmf_eq, decodeZlibCmf, if_neg (mt (cmf_method b).1 h)]
  split_ifs <;> exact ⟨_, rfl, fun _ => rfl⟩

/-- Settles O24: no CMF, a CMF of another method, a lone CMF, or CMF and FLG. -/
theorem zlibHeaderOperation : Obligations.ZlibHeaderOperation := by
  intro s hm hst hzero ht
  have htick := (tableReadable_tickHost s).2 ht
  refine ⟨fun hnil => ?noCmf, fun cmf rest hcmf hcm => ?badMethod, fun cmf hcmf hcm => ?noFlg,
    fun cmf flg rest hcmf hcm => ?header⟩
  case noCmf =>
    obtain ⟨t, hread, hmoves⟩ := readByte_end htick (by rwa [restBytes_tickHost])
    rw [step_eq, turn_zlibHeader hm hst, hread, ← hmoves.enterError]
    rfl
  all_goals
    obtain ⟨c, hread, hbit, hrest⟩ := readByte_rest htick ((restBytes_tickHost s).trans hcmf)
    rw [tickHost_cur, hzero] at hbit
  case badMethod =>
    obtain ⟨i, hdecode, hexec⟩ := decode_zlibCmf_otherMethod hcm
    rw [step_fetched (turn_zlibHeader hm hst) (by rw [hread, Run.bind_ok]) hdecode, hexec]
    rfl
  all_goals
    obtain ⟨cinfo, hdecode⟩ := decode_zlibCmf_method8 hcm
    rw [step_fetched (turn_zlibHeader hm hst) (by rw [hread, Run.bind_ok]) hdecode]
  case noFlg =>
    rw [execZhdr_truncated (s := { tickHost s with cur := c }) htick hrest]
    rfl
  case header =>
    obtain ⟨c', hexec, hbit', hrest'⟩ := execZhdr_reads (cinfo := cinfo) (s := { tickHost s with cur := c }) htick hrest
    refine ⟨c', ?_, hbit'.trans hbit, (restBytes_tickHost_withCur s c').symm.trans hrest'⟩
    rw [hexec, ← hm.boundary]

/-! ### Operation BLOCK_HEADER -/

/-- The row of a block header by BTYPE's two bits (R57). -/
def blockRow (bfinal : BitVec 1) : Bool → Bool → Instr
  | false, false => .blockStored bfinal
  | false, true => .blockFixed bfinal
  | true, false => .blockDynamic bfinal
  | true, true => .blockReserved bfinal

/-- A block header's bits in the order they are read: BFINAL, then BTYPE with its low bit first (R57, R101). -/
theorem decode_blockHeader (f lo hi : Bool) :
    decode .blockHeader (BitVec.ofNat 40 (f.toNat + 2 * (lo.toNat + 2 * hi.toNat)))
      = .ok (blockRow (BitVec.ofBool f) hi lo) := by
  cases f <;> cases lo <;> cases hi <;> decide

/-- A block header cut short (R101). -/
theorem step_blockHeader_truncated {s : State} (hm : engineMoves s) (hst : s.st = .blockHeader) (ht : tableReadable s)
    (h : (restBits s).length < 3) : step s = .next (enterError .truncatedInput
      { tickHost s with bfinal := ((restBits s).head?.map BitVec.ofBool).getD s.bfinal }) := by
  obtain ⟨c, hread⟩ := readBlockHeader_end ((tableReadable_tickHost s).2 ht) (by rwa [restBits_tickHost])
  rw [step_eq, turn_blockHeader hm hst, hread, restBits_tickHost, tickHost_bfinal]
  rfl

/-- Settles O25: no bit, one or two bits, or three bits, by the row that BTYPE names. -/
theorem blockHeaderOperation : Obligations.BlockHeaderOperation := by
  intro s hm hst ht
  refine ⟨fun hnil => ?noBit, fun f rest hbits hlen => ?cut, fun f lo hi rest hbits => ?header⟩
  case noBit =>
    rw [step_blockHeader_truncated hm hst ht (by simp [hnil]), hnil, tickHost_eq]
    rfl
  case cut =>
    rw [step_blockHeader_truncated hm hst ht (by rw [hbits, List.length_cons]; omega), hbits]
    rfl
  case header =>
    obtain ⟨c, hread, hrest⟩ := readBlockHeader_rest ((tableReadable_tickHost s).2 ht)
      ((restBits_tickHost s).trans hbits)
    refine ⟨c, (restBits_tickHost_withCur s c).symm.trans hrest, fun u hu => ?_⟩
    have hstep := step_fetched (turn_blockHeader hm hst) hread (decode_blockHeader f lo hi)
    have hp : u.phase = .boundary := by rw [hu]; exact hm.boundary
    have hgo (st : EngineState) : Host.Outcome.next (goto st u) = (.next { u with st := st } :
        Host.Outcome State Fault Refusal) := congrArg _ (goto_of_boundary st hp)
    have hcount : s.blockCount + 1 = (tickHost s).blockCount + 1 := by rw [tickHost_blockCount]
    refine ⟨?_, ?_, ?_, ?_⟩ <;> rintro rfl rfl
    · rw [hstep, ← hgo, hu, hcount]; rfl
    · rw [hstep, ← hgo, hu, hcount]; rfl
    · rw [hstep, ← hgo, hu, hcount]; rfl
    · rw [hstep, hu, hcount]; rfl

end Sys2Proof.Machine
end

section
/-! PROOFS. Operation DYNAMIC_TABLES up to its last part (43_inflate_blocks R106 to R112): the counts and the code-length table,
and the repeats. -/

namespace Sys2Proof.Machine

/-! ### The counts and the code-length table -/

/-- The state has come from `s` by reading `n` bits and writing the scratch. -/
structure ReadIntoScratch (s : State) (n : Nat) (u : State) : Prop where
  frame : u = { s with cur := u.cur, dyn := u.dyn }
  left : n ≤ (restBits s).length
  rest : restBits u = (restBits s).drop n

/-- TruncatedInput raised where fewer than `n` bits were left: only the cursor and the scratch have changed. -/
structure CutInScratch (s : State) (n : Nat) (e : ErrorCode) (u : State) : Prop where
  error : e = .truncatedInput
  frame : u = { s with cur := u.cur, dyn := u.dyn }
  left : (restBits s).length < n

theorem CutInScratch.mono {s u : State} {m n : Nat} {e : ErrorCode} (h : CutInScratch s m e u) (hmn : m ≤ n) :
    CutInScratch s n e u := ⟨h.error, h.frame, h.left.trans_le hmn⟩

/-- Error entry leaves the cursor unspecified (R147). -/
theorem CutInScratch.enterError {s u : State} {n : Nat} {e : ErrorCode} (h : CutInScratch s n e u) :
    enterError e u = enterError .truncatedInput { s with dyn := u.dyn } := by
  rw [h.error, h.frame]; rfl

theorem ReadIntoScratch.refl (s : State) : ReadIntoScratch s 0 s := ⟨rfl, Nat.zero_le _, rfl⟩

theorem ReadIntoScratch.setDyn {s u : State} {n : Nat} (h : ReadIntoScratch s n u) (d : DynScratch) :
    ReadIntoScratch s n { u with dyn := d } := ⟨by rw [h.frame], h.left, h.rest⟩

/-- The next bits of the stream, or too few. -/
theorem ReadIntoScratch.readBits {s u : State} {n : Nat} (h : ReadIntoScratch s n u) (ht : tableReadable s) (k : Nat) :
    (readBits k u).All False
      (fun v t => v = bitsValue (((restBits s).drop n).take k) ∧ t.dyn = u.dyn ∧ ReadIntoScratch s (n + k) t)
      (CutInScratch s (n + k)) := by
  have hleft := h.left
  have htu : tableReadable u := by rw [h.frame]; exact ht
  refine (readBits_spec k htu).imp id ?_ ?_
  all_goals rw [h.rest, List.length_drop]
  · rintro v t ⟨hm, hlen, hv, hrest⟩
    exact ⟨hv, hm.dyn, by rw [hm, h.frame], by omega, by rw [hrest, List.drop_drop]⟩
  · rintro e t ⟨he, hm, hlen⟩
    exact ⟨he, by rw [hm, h.frame], by omega⟩

/-- The scratch with the three counts that `bits` begin with (R106). -/
def DynScratch.withCounts (d : DynScratch) (bits : List Bool) : DynScratch :=
  { d with
    hlit := BitVec.ofNat 9 (bitsValue (bits.take 5) + 257)
    hdist := BitVec.ofNat 6 (bitsValue ((bits.drop 5).take 5) + 1)
    hclen := BitVec.ofNat 5 (bitsValue ((bits.drop 10).take 4) + 4) }

/-- The three counts from their 14 bits (R106). -/
theorem dynCounts_spec {s : State} (ht : tableReadable s) :
    (dynCounts s).All False (fun _ t => t.dyn = s.dyn.withCounts (restBits s) ∧ ReadIntoScratch s 14 t)
      (CutInScratch s 14) := by
  refine Run.All.bind (((ReadIntoScratch.refl s).readBits ht 5).imp id (fun _ _ h => h) fun _ _ h => h.mono (by decide)) ?_
  rintro hl u ⟨rfl, hu, hread⟩
  refine Run.All.bind (((hread.setDyn _).readBits ht 5).imp id (fun _ _ h => h) fun _ _ h => h.mono (by decide)) ?_
  rintro hd v ⟨rfl, hv, hread⟩
  refine Run.All.bind (((hread.setDyn _).readBits ht 4).imp id (fun _ _ h => h) fun _ _ h => h.mono (by decide)) ?_
  rintro hc w ⟨rfl, hw, hread⟩
  refine ⟨?_, hread.setDyn _⟩
  rw [hw, hv, hu]
  rfl

/-- The 3-bit lengths of the symbols `ps`, in that order; a symbol that is not listed keeps its length (R107). -/
theorem readClLengths_spec {s u : State} {n : Nat} (ps cl : List Nat) (h : ReadIntoScratch s n u) (ht : tableReadable s)
    (hps : ps.Nodup) (hcl : ∀ p ∈ ps, p < cl.length) :
    (readClLengths ps cl u).All False
      (fun l t => (l.length = cl.length ∧ (∀ q, q ∉ ps → l.getD q 0 = cl.getD q 0)
          ∧ ∀ k, k < ps.length → l.getD (ps.getD k 0) 0 = bitsValue (((restBits s).drop (n + 3 * k)).take 3))
        ∧ t.dyn = u.dyn ∧ ReadIntoScratch s (n + 3 * ps.length) t)
      (CutInScratch s (n + 3 * ps.length)) := by
  induction ps generalizing cl u n with
  | nil => exact ⟨⟨rfl, fun _ _ => rfl, nofun⟩, rfl, h⟩
  | cons p ps ih =>
    obtain ⟨hp, hps⟩ := List.nodup_cons.1 hps
    have hlen : n + 3 + 3 * ps.length = n + 3 * (p :: ps).length := by rw [List.length_cons]; omega
    refine Run.All.bind ((h.readBits ht 3).imp id (fun _ _ h => h) fun _ _ h => h.mono (by omega)) ?_
    rintro v t ⟨rfl, hdyn, hread⟩
    have hset (q : Nat) (hq : q ∈ ps) := (hcl q (.tail p hq)).trans_eq
      (List.length_set (i := p) (a := bitsValue (((restBits s).drop n).take 3))).symm
    rw [← hlen]
    refine (ih _ hread hps hset).imp id ?_ fun _ _ h => h
    rintro l w ⟨⟨hl, hother, hsent⟩, hdyn', hread'⟩
    refine ⟨⟨hl.trans List.length_set, fun q hq => ?_, fun k hk => ?_⟩, hdyn'.trans hdyn, hread'⟩
    · obtain ⟨hne, hq⟩ := not_or.1 (mt List.mem_cons.2 hq)
      rw [hother q hq, List.getD_eq_getElem?_getD, List.getElem?_set_ne (Ne.symm hne), List.getD_eq_getElem?_getD]
    · cases k with
      | zero =>
        rw [List.getD_cons_zero, hother p hp, List.getD_eq_getElem?_getD,
          List.getElem?_set_self (hcl p (List.mem_cons_self ..))]
        rfl
      | succ k =>
        rw [List.getD_cons_succ, hsent k (by simpa using hk), show n + 3 * (k + 1) = n + 3 + 3 * k by omega]

/-- The lengths `cl` of the code-length symbols, of which the first `hclen` in the order PERM are sent, in 3 bits each (R107). -/
def SentLengths (bits : List Bool) (hclen : Nat) (cl : List Nat) : Prop :=
  cl.length = 19 ∧ ∀ k, k < 19 → cl.getD (clOrder.getD k 0) 0 =
    if k < hclen then bitsValue ((bits.drop (14 + 3 * k)).take 3) else 0

theorem getD_notMem_take {l : List Nat} (h : l.Nodup) {n k : Nat} (hk : k < l.length) (hn : n ≤ k) :
    l.getD k 0 ∉ l.take n := by
  rw [List.getD_eq_getElem _ _ hk]
  intro hmem
  obtain ⟨i, hi, heq⟩ := List.mem_take_iff_getElem.1 hmem
  have := h.getElem_inj_iff.1 heq
  omega

/-- The code-length table after the three counts of a header at `s`: the lengths sent and the zeros not sent (R107, D15). -/
theorem dynClTable_spec {s u : State} (h : ReadIntoScratch s 14 u) (ht : tableReadable s) {hclen : Nat}
    (hn : u.dyn.hclen.toNat = hclen) (h19 : hclen ≤ 19) :
    (dynClTable u).All False
      (fun _ t => 14 + 3 * hclen ≤ (restBits s).length ∧ restBits t = (restBits s).drop (14 + 3 * hclen)
        ∧ ∃ (cl : List Nat) (d k : Nat), SentLengths (restBits s) hclen cl
          ∧ t = { s with cur := t.cur, clt := build cltShape cl d, draws := k, dyn := { u.dyn with nl := 0 } })
      (CutInScratch s (14 + 3 * hclen)) := by
  have hnodup : clOrder.Nodup := by decide
  have hlt : ∀ p ∈ clOrder, p < (List.replicate clCap 0).length := by decide
  have hlen : (clOrder.take hclen).length = hclen := List.length_take_of_le h19
  have hread := readClLengths_spec (clOrder.take hclen) (List.replicate clCap 0) h ht
    (hnodup.sublist (List.take_sublist ..)) fun p hp => hlt p (List.mem_of_mem_take hp)
  rw [hlen] at hread
  rw [dynClTable, hn]
  refine Run.All.bind hread ?_
  rintro cl t ⟨⟨hcl, hother, hsent⟩, hdyn, hread⟩
  refine ⟨hread.left, hread.rest, cl, _, _, ⟨hcl.trans List.length_replicate, fun k hk => ?_⟩, by rw [hdyn, hread.frame]⟩
  split
  next hk' =>
    rw [← hsent k hk', List.getD_eq_getElem?_getD (l := clOrder),
      List.getD_eq_getElem?_getD (l := clOrder.take hclen),
      List.getElem?_take_of_lt hk']
  next hk' =>
    rw [hother _ (getD_notMem_take hnodup hk (not_lt.1 hk')), List.getD_eq_getElem?_getD,
      List.getElem?_getD_replicate_default_eq]

/-- The first part of DYNAMIC_TABLES, from its boundary to its first code-length symbol (R106, R107). -/
theorem dynHeader_spec {s : State} (ht : tableReadable s) {hclen : Nat}
    (hn : hclen = bitsValue (((restBits s).drop 10).take 4) + 4) :
    ((dynCounts s).bind fun _ s => dynClTable s).All False
      (fun _ t => 14 + 3 * hclen ≤ (restBits s).length ∧ restBits t = (restBits s).drop (14 + 3 * hclen)
        ∧ ∃ (cl : List Nat) (d k : Nat), SentLengths (restBits s) hclen cl
          ∧ t = { s with
            cur := t.cur
            clt := build cltShape cl d
            draws := k
            dyn := { s.dyn.withCounts (restBits s) with nl := 0 } })
      (CutInScratch s (14 + 3 * hclen)) := by
  have hbits : bitsValue (((restBits s).drop 10).take 4) < 2 ^ 4 :=
    (bitsValue_lt _).trans_le (Nat.pow_le_pow_right (by decide) (List.length_take_le ..))
  refine Run.All.bind ((dynCounts_spec ht).imp id (fun _ _ h => h) fun _ _ h => h.mono (Nat.le_add_right ..)) ?_
  rintro - u ⟨hdyn, hread⟩
  rw [← hdyn]
  refine dynClTable_spec hread ht ?_ (by omega)
  rw [hdyn, hn]
  exact Nat.mod_eq_of_lt (by omega)

/-- Settles O29: the header's bits are there, or the read raises in the counts or in the lengths. -/
theorem dynamicHeaderOperation : Obligations.DynamicHeaderOperation := by
  intro s perm hclen hm hst ht hperm hn
  have hhead := dynHeader_spec (hclen := hclen) ((tableReadable_tickHost s).2 ht) (by rwa [restBits_tickHost])
  simp only [restBits_tickHost, tickHost_dyn] at hhead
  rw [step_dynamicTables hm hst, runDynHeader, ← Run.bind_assoc]
  refine ⟨fun hlen => ?read, fun hlen => ?truncated⟩
  case read =>
    obtain ⟨⟨⟩, t, hx, -, hrest, cl, d, k, ⟨hcl, hsent⟩, hframe⟩ :=
      hhead.ok_of fun e t h => absurd h.left (not_lt.2 (by rwa [restBits_tickHost]))
    refine ⟨t.cur, cl, d, k, ?_, ?_, hcl, hperm ▸ hsent⟩
    · rw [hx, Run.bind_ok, Run.finish_ok, hframe, hn]
      rfl
    · rw [← hrest, hframe, ← restBits_tickHost_withCur]
      rfl
  case truncated =>
    obtain ⟨e, t, hx, hcut⟩ := hhead.raise_of fun a t ⟨h, _⟩ => by omega
    exact ⟨t.dyn, by rw [hx, Run.bind_raise, Run.finish_raise, hcut.enterError]⟩

/-! ### The repeats -/

/-- A repeat: the extra bits, then `base` entries `v` and as many more as they say (R110 to R112). -/
def repeatLengths (v : BitVec 4) (base extra : Nat) (s : State) : Host.Outcome State Fault Refusal :=
  ((readBits extra s).bind fun e s => appendLengths v (base + e) s).finish

section
variable {v : BitVec 4} {base extra : Nat} {s : State}

/-- The extra bits are missing. -/
theorem repeatLengths_truncated (ht : tableReadable s) (h : (restBits s).length < extra) :
    repeatLengths v base extra s = .next (enterError .truncatedInput s) := by
  obtain ⟨t, hread, hmoves⟩ := readBits_end ht h
  rw [repeatLengths, hread, Run.bind_raise, Run.finish_raise, hmoves.enterError]

variable {rep : Nat} (hbits : bitsLeft extra s) (hrep : rep = base + bitsValue ((restBits s).take extra))
include hbits hrep

/-- The repeat would pass HLIT + HDIST (D17). -/
theorem repeatLengths_overflow (h : s.dyn.hlit.toNat + s.dyn.hdist.toNat < s.dyn.nl.toNat + rep) :
    repeatLengths v base extra s = .next (enterError .invalidCodeLengths s) := by
  obtain ⟨c, hread, -⟩ := readBits_rest hbits
  rw [repeatLengths, hread, Run.bind_ok, ← hrep, appendLengths, if_pos h, Run.finish_raise]
  rfl

theorem repeatLengths_appends (h : s.dyn.nl.toNat + rep ≤ s.dyn.hlit.toNat + s.dyn.hdist.toNat)
    (hlens : s.dyn.lens.length = 320) :
    ∃ (c : Cursor) (lens : List (BitVec 4)),
      repeatLengths v base extra s = .next { s with
        cur := c
        dyn := { s.dyn with lens := lens, nl := BitVec.ofNat 9 (s.dyn.nl.toNat + rep) } }
      ∧ restBits { s with cur := c } = (restBits s).drop extra
      ∧ lens.length = 320
      ∧ ∀ j, j < 320 → lens.getD j 0 =
          if s.dyn.nl.toNat ≤ j ∧ j < s.dyn.nl.toNat + rep then v else s.dyn.lens.getD j 0 := by
  obtain ⟨c, hread, hrest⟩ := readBits_rest hbits
  refine ⟨c, setLengths v s.dyn.nl.toNat rep s.dyn.lens, ?_, hrest, (setLengths_length ..).trans hlens,
    fun j hj => setLengths_get v _ _ _ j (by rwa [hlens])⟩
  have hnl : BitVec.ofNat 9 (s.dyn.nl.toNat + rep) = s.dyn.nl + BitVec.ofNat 9 rep := by
    rw [BitVec.ofNat_add, BitVec.ofNat_toNat, BitVec.setWidth_eq]
  rw [repeatLengths, hread, Run.bind_ok, ← hrep, appendLengths, if_neg (not_lt.2 h), Run.finish_ok, hnl]

end

/-- Symbol 16 with no previous length (D16). -/
theorem exec_cl16_first {s : State} (h : s.dyn.nl = 0) : exec .cl16 s = .next (enterError .invalidCodeLengths s) := by
  show execCl16 s = _
  rw [execCl16, if_pos h, Run.finish_raise]

/-- Symbol 16 repeats the previous length (R110). -/
theorem exec_cl16_repeats {s : State} (h : s.dyn.nl ≠ 0) :
    exec .cl16 s = repeatLengths (s.dyn.lens.getD (s.dyn.nl.toNat - 1) 0) 3 2 s := by
  show execCl16 s = _
  rw [execCl16, if_neg h, repeatLengths]

/-- Settles O31: no previous length, or a repeat of it. -/
theorem repeatPreviousElement : Obligations.RepeatPreviousElement := by
  intro s hlens _ ht
  refine ⟨exec_cl16_first, fun h hbits => ?_, fun rep hbits hrep h => ⟨fun hover => ?_, fun hfits => ?_⟩⟩
  all_goals rw [exec_cl16_repeats h]
  · exact repeatLengths_truncated ht hbits
  · exact repeatLengths_overflow ⟨ht, hbits⟩ hrep hover
  · exact repeatLengths_appends ⟨ht, hbits⟩ hrep hfits hlens

/-- Settles O32: both symbols are a repeat of the length 0. -/
theorem repeatZeroElements : Obligations.RepeatZeroElements := by
  intro i base extra s hi hlens _ ht
  have hexec : exec i s = repeatLengths 0 base extra s := by
    obtain ⟨rfl, rfl, rfl⟩ | ⟨rfl, rfl, rfl⟩ := hi <;> rfl
  rw [hexec]
  exact ⟨repeatLengths_truncated ht, fun rep hbits hrep =>
    ⟨repeatLengths_overflow ⟨ht, hbits⟩ hrep, fun hfits => repeatLengths_appends ⟨ht, hbits⟩ hrep hfits hlens⟩⟩

end Sys2Proof.Machine
end

section
/-! PROOFS. Operation STORED_BLOCK (43_inflate_blocks R103, R104): the copy writes the work buffer only, so it does not change
what is left of the stream, and its bytes stand where OUT_COUNT was. -/

namespace Sys2Proof.Machine

/-! ### The stream under writes to the work buffer -/

theorem readLe32_congr {m m' : Memory} {a : Nat} (h : ∀ b, a ≤ b → b < a + 4 → m.read b = m'.read b) :
    m.readLe32 a = m'.readLe32 a := by
  unfold Memory.readLe32
  rw [h a (by omega) (by omega), h (a + 1) (by omega) (by omega), h (a + 2) (by omega) (by omega),
    h (a + 3) (by omega) (by omega)]

/-- The addresses of later segments depend on their descriptors only (R41). -/
theorem laterAddrs_congr {m m' : Memory} {segtab n : Nat} (k i : Nat) (hk : k = n - i)
    (h : ∀ b, segtab ≤ b → b < segtab + 8 * n → m.read b = m'.read b) :
    laterAddrs m segtab k i = laterAddrs m' segtab k i := by
  induction k generalizing i with
  | zero => rfl
  | succ k ih =>
    rw [laterAddrs, laterAddrs, ih (i + 1) (by omega), readLe32_congr fun b _ _ => h b (by omega) (by omega),
      readLe32_congr fun b _ _ => h b (by omega) (by omega)]

/-- A write to the work buffer leaves the addresses of the stream, wherever the cursor stands (R42 duty 2). -/
theorem streamApart.restAddrs_write {s : State} (h : streamApart s) {p : Nat} (hp : inWork s p) (b : Byte) (c : Cursor) :
    restAddrs { s with cur := c, mem := s.mem.write p b } = restAddrs { s with cur := c } := by
  unfold restAddrs
  refine congrArg _ (laterAddrs_congr _ _ rfl fun a hlow hhigh => ?_)
  exact Memory.read_write_other _ _ fun hpa => (h p hp).1 ⟨hpa ▸ hlow, hpa ▸ hhigh⟩

/-- Nor does it change a byte of the stream from a later cursor on. -/
theorem streamApart.restBytes_write {s : State} (h : streamApart s) {p : Nat} (hp : inWork s p) (b : Byte) {c : Cursor}
    (hc : restAddrs { s with cur := c } ⊆ restAddrs s) :
    restBytes { s with cur := c, mem := s.mem.write p b } = restBytes { s with cur := c } := by
  rw [restBytes, h.restAddrs_write hp b c]
  exact List.map_congr_left fun a ha => Memory.read_write_other _ _ fun hpa => (h p hp).2 (hpa ▸ hc ha)

/-- The stream stays apart from the work buffer while it is read and the work buffer is written. -/
theorem streamApart.of_subset {s t : State} (h : streamApart s) (hlat : t.lat = s.lat) (hsizes : t.sizes = s.sizes)
    (haddrs : restAddrs t ⊆ restAddrs s) : streamApart t := by
  unfold streamApart inWork
  rw [hlat, hsizes]
  exact fun a ha => ⟨(h a ha).1, fun hmem => (h a ha).2 (haddrs hmem)⟩

/-! ### The copy -/

/-- Memory `m` is `m0` with `bytes` put at `p` on. -/
structure StoresBytes (m0 m : Memory) (p : Nat) (bytes : List Byte) : Prop where
  stored : ∀ k, k < bytes.length → m.read (p + k) = bytes.getD k 0
  other : ∀ a, (a < p ∨ p + bytes.length ≤ a) → m.read a = m0.read a

/-- One byte more at the front. -/
theorem StoresBytes.cons {m0 m : Memory} {p : Nat} {b : Byte} {bytes : List Byte}
    (h : StoresBytes (m0.write p b) m (p + 1) bytes) : StoresBytes m0 m p (b :: bytes) := by
  refine ⟨fun k hk => ?_, fun a ha => ?_⟩
  · cases k with
    | zero =>
      rw [h.other (p + 0) (by omega)]
      exact Memory.read_write_same ..
    | succ k => simpa [Nat.add_assoc, Nat.add_comm 1 k] using h.stored k (by simpa using hk)
  · rw [List.length_cons] at ha
    rw [h.other a (by omega), Memory.read_write_other _ _ (by omega)]

/-- OUT_COUNT counts up without wrapping below WORK_SIZE. -/
theorem outCount_succ {s : State} (h : s.outCount.toNat < s.sizes.workSize.toNat) :
    (s.outCount + 1).toNat = s.outCount.toNat + 1 := by
  have := s.sizes.workSize.isLt
  bv_omega

/-- The state `n` bytes further in the copy (R104), with the cursor and the memory it has come to. -/
def State.copied (s : State) (c : Cursor) (m : Memory) (n : Nat) : State :=
  { s with
    cur := c
    mem := m
    outCount := s.outCount + BitVec.ofNat 32 n
    storedRem := s.storedRem - BitVec.ofNat 16 n }

theorem State.copied_zero (s : State) : s.copied s.cur s.mem 0 = s := by simp [State.copied]

theorem State.copied_copied (s : State) (c c' : Cursor) (m m' : Memory) (n n' : Nat) :
    (s.copied c m n).copied c' m' n' = s.copied c' m' (n + n') := by
  simp only [State.copied, BitVec.ofNat_add, BitVec.add_assoc, BitVec.sub_sub]

/-- One byte of the copy (R104) that is there and has room. -/
theorem copyStored_succ {n a : Nat} {as : List Nat} {s : State} (ht : tableReadable s) (ha : restAddrs s = a :: as)
    (hroom : s.outCount.toNat < s.sizes.workSize.toNat)
    (hw : s.lat.wbase.toNat + s.sizes.workSize.toNat ≤ memBytes) :
    ∃ c : Cursor, copyStored (n + 1) s
        = copyStored n (s.copied c (s.mem.write (s.lat.wbase.toNat + s.outCount.toNat) (s.mem.read a)) 1)
      ∧ c.bit = s.cur.bit ∧ restAddrs { s with cur := c } = as := by
  obtain ⟨c, hread, hbit, hrest⟩ := readByte_addrs ht ha
  have hne : s.outCount ≠ s.sizes.workSize := fun h => by rw [h] at hroom; omega
  refine ⟨c, ?_, hbit, hrest⟩
  rw [copyStored, hread, Run.bind_ok, emit_ok (s := { s with cur := c }) hne (show s.lat.wbase.toNat + s.outCount.toNat < _ by omega),
    Run.bind_ok]
  rfl

/-- The copy (R104) with `j` bytes there and room for them, and `n` bytes still to copy. -/
theorem copyStored_copies (n j : Nat) {s : State} (ht : tableReadable s) (hap : streamApart s)
    (hj : j ≤ (restAddrs s).length) (hroom : s.outCount.toNat + j ≤ s.sizes.workSize.toNat)
    (hw : s.lat.wbase.toNat + s.sizes.workSize.toNat ≤ memBytes) :
    ∃ (c : Cursor) (m : Memory), copyStored (n + j) s = copyStored n (s.copied c m j)
      ∧ c.bit = s.cur.bit ∧ restAddrs { s with cur := c } = (restAddrs s).drop j
      ∧ restAddrs (s.copied c m j) = (restAddrs s).drop j
      ∧ StoresBytes s.mem m (s.lat.wbase.toNat + s.outCount.toNat) ((restBytes s).take j) := by
  induction j generalizing s with
  | zero => exact ⟨s.cur, s.mem, by rw [State.copied_zero]; rfl, rfl, rfl, rfl, nofun, fun _ _ => rfl⟩
  | succ j ih =>
    obtain ⟨a, as, ha⟩ : ∃ a as, restAddrs s = a :: as := List.exists_cons_of_length_pos (by omega)
    obtain ⟨c, hcopy, hbit, hrest⟩ := copyStored_succ (n := n + j) ht ha (by omega) hw
    have hp : inWork s (s.lat.wbase.toNat + s.outCount.toNat) := ⟨by omega, by omega⟩
    have hsub : as ⊆ restAddrs s := ha ▸ List.subset_cons_self a as
    have hbytes := hap.restBytes_write hp (s.mem.read a) (hrest ▸ hsub)
    have haddrs := hap.restAddrs_write hp (s.mem.read a)
    generalize hm₁ : s.mem.write (s.lat.wbase.toNat + s.outCount.toNat) (s.mem.read a) = m₁ at hcopy hbytes haddrs
    have haddrs₁ : restAddrs (s.copied c m₁ 1) = as := (haddrs c).trans hrest
    have hcount : (s.copied c m₁ 1).outCount.toNat = s.outCount.toNat + 1 := outCount_succ (s := s) (by omega)
    have hlen : j ≤ as.length := by rw [ha] at hj; exact Nat.le_of_succ_le_succ hj
    obtain ⟨c', m, hcopy', hbit', hrest', hleft, hstored⟩ := ih (s := s.copied c m₁ 1) ht
      (hap.of_subset rfl rfl (haddrs₁ ▸ hsub)) (haddrs₁ ▸ hlen) (by rw [hcount, Nat.add_assoc, Nat.add_comm 1]; exact hroom) hw
    rw [State.copied_copied, Nat.add_comm 1 j] at hcopy' hleft
    rw [ha, List.drop_succ_cons, ← haddrs₁]
    refine ⟨c', m, hcopy.trans hcopy', hbit'.trans hbit, (haddrs c').symm.trans hrest', hleft, ?_⟩
    have hcons : restBytes s = s.mem.read a :: restBytes (s.copied c m₁ 1) := by
      rw [restBytes, ha, List.map_cons, ← hrest]
      exact congrArg _ hbytes.symm
    rw [hcons, List.take_succ_cons]
    refine StoresBytes.cons ?_
    rw [hcount] at hstored
    rw [hm₁]
    exact hstored

/-- The copy at the end of the stream (R104). -/
theorem copyStored_noByte (n : Nat) {s : State} (ht : tableReadable s) (h : restAddrs s = []) :
    ∃ t, copyStored (n + 1) s = .raise .truncatedInput t ∧ MovesCursor s t := by
  obtain ⟨t, hread, hmoves⟩ := readByte_end ht (by rw [restBytes, h]; rfl)
  exact ⟨t, by rw [copyStored, hread, Run.bind_raise], hmoves⟩

/-- The copy with a byte there and the work buffer full (R104, R117). -/
theorem copyStored_full (n : Nat) {s : State} (ht : tableReadable s) (h : restAddrs s ≠ [])
    (hfull : s.outCount = s.sizes.workSize) :
    ∃ t, copyStored (n + 1) s = .raise .outputSizeMismatch t ∧ MovesCursor s t := by
  obtain ⟨a, as, ha⟩ := List.exists_cons_of_ne_nil h
  obtain ⟨c, hread, -, -⟩ := readByte_addrs ht ha
  refine ⟨_, ?_, .of s c⟩
  rw [copyStored, hread, Run.bind_ok, emit, if_pos (show s.outCount = s.sizes.workSize from hfull), Run.bind_raise]

/-! ### The header and the operation -/

theorem storedHeader_eq (s : State) : storedHeader s = (readBytes 4 (alignToByte s)).bind fun bs s =>
    .ok () { s with storedRem := le16 (bs.getD 0 0) (bs.getD 1 0) } := by
  simp only [storedHeader, readBytes, Run.bind_assoc, Run.bind_ok, List.getD_cons_zero, List.getD_cons_succ]

/-- LEN and NLEN from the four bytes after the alignment (R103). -/
theorem storedHeader_spec {s : State} (ht : tableReadable s) (hs : s.cur.sound) :
    (storedHeader s).All False
      (fun _ t => ∃ b0 b1 n0 n1, alignedBytes s = b0 :: b1 :: n0 :: n1 :: restBytes t
        ∧ t = { s with cur := t.cur, storedRem := le16 b0 b1 } ∧ t.cur.bit = 0 ∧ restAddrs t ⊆ restAddrs s)
      (fun e t => e = .truncatedInput ∧ MovesCursor s t ∧ (alignedBytes s).length < 4) := by
  rw [storedHeader_eq]
  refine Run.All.bind (readAligned_spec 4 ht hs) ?_
  rintro bs t ⟨hmoves, hbit, hlen, hsplit, hsub⟩
  obtain ⟨b0, b1, n0, n1, rfl⟩ := List.length_eq_four.1 hlen
  exact ⟨b0, b1, n0, n1, hsplit, by rw [hmoves]; rfl, hbit, hsub⟩

theorem le16_toNat (b0 b1 : Byte) : (le16 b0 b1).toNat = b0.toNat + 256 * b1.toNat := by
  rw [le16, toNat_append_eq_add]
  omega

theorem restAddrs_tickHost (s : State) : restAddrs (tickHost s) = restAddrs s := by rw [tickHost_eq]; rfl

/-- A state inside the copy of the stored block that began in `s` (R104). -/
def InCopy (s t : State) : Prop :=
  t = { tickHost s with cur := t.cur, mem := t.mem, storedRem := t.storedRem, outCount := t.outCount }

theorem InCopy.raises {s u : State} {c : Cursor} {m : Memory} {n : Nat} {e : ErrorCode} {x : Run Unit} (hu : InCopy s u)
    (hstep : step s = x.finish) (hx : ∃ t, x = .raise e t ∧ MovesCursor (u.copied c m n) t) :
    ∃ t, step s = .next (enterError e t) ∧ InCopy s t := by
  obtain ⟨t, rfl, hm⟩ := hx
  refine ⟨t, hstep, ?_⟩
  unfold InCopy
  rw [hm, State.copied, hu]

section
variable {s : State} (hm : engineMoves s) (hst : s.st = .storedBlock) (ht : tableReadable s) (hs : s.cur.sound)
include hm hst ht hs

/-- Fewer than four bytes after the alignment (R103). -/
theorem step_storedBlock_truncated (h : (alignedBytes s).length < 4) :
    step s = .next (enterError .truncatedInput (tickHost s)) := by
  have hhead := storedHeader_spec ((tableReadable_tickHost s).2 ht) (by rwa [tickHost_cur])
  rw [alignedBytes_tickHost] at hhead
  obtain ⟨e, t, hx, rfl, hmoves, -⟩ := hhead.raise_of fun _ t ⟨b0, b1, n0, n1, hsplit, _⟩ => by
    simp only [hsplit, List.length_cons] at h
    omega
  rw [step_storedBlock hm hst, runStoredBlock, hx, Run.bind_raise, Run.finish_raise, hmoves.enterError]

/-- Past its header the step is the copy of LEN bytes (R103, R104). -/
theorem step_storedBlock_copy {b0 b1 n0 n1 : Byte} {data : List Byte} {len : Nat}
    (h : alignedBytes s = b0 :: b1 :: n0 :: n1 :: data) (hlen : len = b0.toNat + 256 * b1.toNat) :
    ∃ u : State, step s = (copyStored len u).finish
      ∧ u = { tickHost s with cur := u.cur, storedRem := BitVec.ofNat 16 len } ∧ u.cur.bit = 0 ∧ restBytes u = data
      ∧ restAddrs u ⊆ restAddrs s := by
  have hhead := storedHeader_spec ((tableReadable_tickHost s).2 ht) (by rwa [tickHost_cur])
  rw [alignedBytes_tickHost, restAddrs_tickHost] at hhead
  obtain ⟨⟨⟩, u, hx, c0, c1, m0, m1, hsplit, hframe, hbit, hsub⟩ := hhead.ok_of fun e t ⟨_, _, hlt⟩ => by
    simp only [h, List.length_cons] at hlt
    omega
  obtain ⟨rfl, rfl, -, -, rfl⟩ : b0 = c0 ∧ b1 = c1 ∧ n0 = m0 ∧ n1 = m1 ∧ data = restBytes u := by
    simpa using h.symm.trans hsplit
  rw [← le16_toNat] at hlen
  have hrem : u.storedRem.toNat = len := by rw [hframe]; exact hlen.symm
  refine ⟨u, ?_, ?_, hbit, rfl, hsub⟩
  · rw [step_storedBlock hm hst, runStoredBlock, hx, Run.bind_ok, hrem]
  · rw [hlen, BitVec.ofNat_toNat, BitVec.setWidth_eq]
    exact hframe

end

/-- Settles O27: after the header the copy runs to its end, to the end of the stream, or to the end of the work buffer. -/
theorem storedBlockOperation : Obligations.StoredBlockOperation := by
  intro s hm hst ht hs hap hout hw
  refine ⟨step_storedBlock_truncated hm hst ht hs, fun b0 b1 n0 n1 data len haligned hlen => ?_⟩
  obtain ⟨u, hstep, hframe, hbit, hdata, hsub⟩ := step_storedBlock_copy hm hst ht hs haligned hlen
  have hin : InCopy s u := by unfold InCopy; rw [hframe]
  have hlat : u.lat = s.lat := by rw [hframe]; exact tickHost_lat s
  have hsizes : u.sizes = s.sizes := by rw [hframe]; exact tickHost_sizes s
  have hcount : u.outCount = s.outCount := by rw [hframe]; exact tickHost_outCount s
  have hmem : u.mem = s.mem := by rw [hframe]; exact tickHost_mem s
  have htu : tableReadable u := by unfold tableReadable; rw [hlat]; exact ht
  have hcopies := fun n j => copyStored_copies n j htu (hap.of_subset hlat hsizes hsub)
  have hlength : (restAddrs u).length = data.length := by rw [← hdata, restBytes, List.length_map]
  simp only [hlat, hsizes, hcount, hmem, hlength, hdata] at hcopies
  refine ⟨fun hthere hroom => ?copied, fun hshort hroom => ?noByte, fun hover hover' => ?full⟩
  case copied =>
    obtain ⟨c, m, hrun, hbit', hrest, -, hstored⟩ := hcopies 0 len hthere hroom hw
    have hlen' : (data.take len).length = len := List.length_take_of_le hthere
    have hp : (u.copied c m len).phase = .boundary := by rw [State.copied, hframe]; exact hm.boundary
    refine ⟨c, m, ?_, hbit'.trans hbit, ?_, fun k hk => ?_, fun a ha => hstored.other a (by rwa [hlen'])⟩
    · rw [Nat.zero_add] at hrun
      rw [hstep, hrun, copyStored, Run.finish_ok, blockEnd, goto_of_boundary _ hp, State.copied, hframe]
      simp
    · have hcur : restAddrs { s with cur := c } = (restAddrs u).drop len := by rw [← hrest, hframe, tickHost_eq]; rfl
      rw [← hdata, restBytes, restBytes, hcur, List.map_drop, hmem]
    · rw [hstored.stored k (by rwa [hlen']), List.getD_eq_getElem?_getD, List.getElem?_take_of_lt hk,
        List.getD_eq_getElem?_getD]
  case noByte =>
    obtain ⟨k, rfl⟩ := Nat.exists_eq_add_of_lt hshort
    obtain ⟨c, m, hrun, -, -, hleft, -⟩ := hcopies (k + 1) data.length le_rfl hroom hw
    rw [Nat.add_comm, ← Nat.add_assoc] at hrun
    refine hin.raises hstep (hrun ▸ copyStored_noByte k (s := u.copied c m data.length) htu ?_)
    rw [hleft, List.drop_eq_nil_of_le hlength.le]
  case full =>
    obtain ⟨j, hj⟩ := Nat.exists_eq_add_of_le hout
    obtain ⟨k, rfl⟩ : ∃ k, len = k + 1 + j := ⟨len - j - 1, by omega⟩
    obtain ⟨c, m, hrun, -, -, hleft, -⟩ := hcopies (k + 1) j (by omega) hj.ge hw
    refine hin.raises hstep (hrun ▸ copyStored_full k (s := u.copied c m j) htu ?_ ?_)
    · rw [hleft, ← List.length_pos_iff, List.length_drop]
      omega
    · refine BitVec.eq_of_toNat_eq ?_
      have hlt := s.sizes.workSize.isLt
      show (u.outCount + BitVec.ofNat 32 j).toNat = u.sizes.workSize.toNat
      rw [hcount, hsizes, BitVec.toNat_add, BitVec.toNat_ofNat]
      omega

end Sys2Proof.Machine
end

section
/-! PROOFS. The transitions of STATE (10_state R98): what each operation can make of STATE, and the events of the host. -/

namespace Sys2Proof.Machine

/-! ### An operation that changes STATE by a raise only -/

/-- A raise recorded by an operation in the busy state `st` (R147). -/
def Fails (st : EngineState) (t : State) : Prop :=
  t.st = .error ∧ busyState st = true ∧ t.errState = st ∧ t.errCode ≠ .noError

/-- STATE is kept, or a raise is recorded. -/
def Continues (st : EngineState) (t : State) : Prop := t.st = st ∨ Fails st t

theorem Fails.of_enterError {e : ErrorCode} {u t : State} (ht : t = enterError e u) (hb : u.busy = true)
    (he : e ≠ .noError) : Fails u.st t := by
  rw [ht]
  exact ⟨rfl, hb, rfl, he⟩

/-- The operation keeps STATE, up to where it raises an error too. -/
def Run.Stays {α : Type} (st : EngineState) (x : Run α) : Prop :=
  x.All True (fun _ t => t.st = st) (fun e t => e ≠ .noError ∧ t.st = st)

theorem Run.Stays.bind {α β : Type} {st : EngineState} {x : Run α} {k : α → State → Run β} (hx : x.Stays st)
    (hk : ∀ a u, u.st = st → (k a u).Stays st) : (x.bind k).Stays st := Run.All.bind hx hk

theorem Run.Stays.continues {st : EngineState} {x : Run Unit} {t : State} (hx : x.Stays st) (hb : busyState st = true)
    (h : x.finish = .next t) : Continues st t := by
  rcases hx.finish h with hst | ⟨e, u, ⟨he, rfl⟩, ht⟩
  · exact .inl hst
  · exact .inr (.of_enterError ht hb he)

theorem readBits_stays (n : Nat) (s : State) : (readBits n s).Stays s.st :=
  (readBits_all n s).imp (fun _ => trivial) (fun _ _ ⟨hm, _⟩ => by rw [hm])
    fun _ _ ⟨he, hm⟩ => ⟨by rw [he]; nofun, by rw [hm]⟩

theorem emit_stays (b : Byte) (s : State) : (emit b s).Stays s.st :=
  (emit_all b s).imp (fun _ => trivial) (fun _ _ ⟨_, _, ht⟩ => by rw [ht])
    fun _ _ ⟨he, _, ht⟩ => ⟨by rw [he]; nofun, by rw [ht]⟩

theorem memRead_stays (a : Nat) (s : State) : (memRead a s).Stays s.st :=
  (memRead_all a s).imp (fun _ => trivial) (fun _ _ ⟨ht, _⟩ => by rw [ht]) fun _ _ h => h.elim

theorem raise_continues {e : ErrorCode} {s t : State} (he : e ≠ .noError) (hb : s.busy = true)
    (h : (Run.raise e s : Run Unit).finish = .next t) : Continues s.st t := by
  cases h
  exact .inr (.of_enterError rfl hb he)

/-! ### The elements -/

theorem repeatLengths_continues {v : BitVec 4} {base extra : Nat} {s t : State} (hb : s.busy = true)
    (h : repeatLengths v base extra s = .next t) : Continues s.st t := by
  refine Run.Stays.continues ((readBits_stays extra s).bind fun e u hu => ?_) hb h
  rw [← hu]
  exact (appendLengths_all v (base + e) u).imp (fun _ => trivial) (fun _ _ ⟨_, ht⟩ => by rw [ht])
    fun _ _ ⟨he, ht⟩ => ⟨by rw [he]; nofun, by rw [ht]⟩

theorem exec_clSymbol_continues {i : Instr} {s t : State} (hf : formatOf i = .clSymbol) (hb : s.busy = true)
    (h : exec i s = .next t) : Continues s.st t := by
  match i, hf with
  | .cl len, _ =>
    rw [codeLengthElement] at h
    cases h
    exact .inl rfl
  | .cl16, _ =>
    by_cases hnl : s.dyn.nl = 0
    · rw [exec_cl16_first hnl] at h
      cases h
      exact .inr (.of_enterError rfl hb nofun)
    · rw [exec_cl16_repeats hnl] at h
      exact repeatLengths_continues hb h
  | .cl17, _ => exact repeatLengths_continues (v := 0) (base := 3) (extra := 3) hb h
  | .cl18, _ => exact repeatLengths_continues (v := 0) (base := 11) (extra := 7) hb h

theorem lengthSymbol_continues {base ext : Nat} {s t : State} (hb : s.busy = true) (h : lengthSymbol base ext s = .next t) :
    Continues s.st t := by
  refine Run.Stays.continues ((readBits_stays ext s).bind fun e u hu => ?_) hb h
  exact hu

theorem copyMatch_stays (n : Nat) (s : State) : (copyMatch n s).Stays s.st := by
  induction n generalizing s with
  | zero => exact rfl
  | succ n ih =>
    refine (memRead_stays _ s).bind fun b u hu => ?_
    refine (hu ▸ emit_stays b u).bind fun _ v hv => ?_
    exact hv ▸ ih v

theorem distanceSymbol_continues {base ext : Nat} {s t : State} (hb : s.busy = true)
    (h : distanceSymbol base ext s = .next t) : Continues s.st t := by
  refine Run.Stays.continues ((readBits_stays ext s).bind fun e u hu => ?_) hb h
  dsimp only
  split
  · exact ⟨nofun, hu⟩
  · refine Run.Stays.bind (st := s.st) ?_ fun _ _ hv => hv
    exact hu ▸ copyMatch_stays u.copyLen.toNat { u with copyDist := BitVec.ofNat 16 (base + e) }

/-- A literal/length symbol changes STATE at the end of the block only (R119). -/
theorem exec_litlenSymbol_continues {i : Instr} {s t : State} (hf : formatOf i = .litlenSymbol) (hb : s.busy = true)
    (h : exec i s = .next t) : Continues s.st t ∨ i = .eob ∧ t = blockEnd s := by
  rcases litlenSymbol_cases hf with ⟨byte, rfl⟩ | rfl | ⟨r, hr, rfl⟩ | ⟨low, rfl⟩
  · exact .inl ((emit_stays byte s).continues hb h)
  · cases h
    exact .inr ⟨rfl, rfl⟩
  · rw [exec_lengthRow hr] at h
    exact .inl (lengthSymbol_continues hb h)
  · exact .inl (raise_continues (e := .invalidSymbol) nofun hb h)

theorem exec_distSymbol_continues {i : Instr} {s t : State} (hf : formatOf i = .distSymbol) (hb : s.busy = true)
    (h : exec i s = .next t) : Continues s.st t := by
  rcases distSymbol_cases hf with ⟨r, hr, rfl⟩ | ⟨low, rfl⟩
  · rw [exec_distanceRow hr] at h
    exact distanceSymbol_continues hb h
  · exact raise_continues (e := .invalidSymbol) nofun hb h

/-- The row after the last one ends the filter pass (R128). -/
theorem rowEnd_changes (s : State) : (rowEnd s).st = s.st ∨ (rowEnd s).st = .done ∧ (rowEnd s).row = s.lat.h := by
  unfold rowEnd
  dsimp only
  split
  next hlast => exact .inr ⟨rfl, hlast⟩
  next => exact .inl rfl

/-- A filter type changes STATE with the last row only (R128). -/
theorem exec_filterType_continues {i : Instr} {s t : State} (hi : Inv s) (hst : s.st = .filter)
    (hf : formatOf i = .filterType) (h : exec i s = .next t) :
    Continues s.st t ∨ t.st = .done ∧ t.row = s.lat.h := by
  have hb : s.busy = true := by rw [State.busy, hst]; rfl
  rcases exec_filterType hf with ⟨ft, pred, he⟩ | ⟨ft, he⟩
  · obtain ⟨hx, ho⟩ := hi.row_inside hst
    have hrow := Run.All.bind (k := fun _ s => .ok () (rowEnd s))
      (Q := fun _ t => t.st = s.st ∨ t.st = .done ∧ t.row = s.lat.h)
      (filterColumns_all pred s.lat.stride.toNat (s := { s with ft := ft, col := 0 }) (by simp) hx ho) fun _ u ⟨hu, _⟩ => by
        have hend := rowEnd_changes u
        rwa [show u.st = s.st by rw [hu], show u.lat = s.lat by rw [hu]] at hend
    rw [he] at h
    rcases hrow.finish h with hend | ⟨_, _, hno, _⟩
    · exact hend.imp .inl id
    · exact hno.elim
  · rw [he] at h
    exact .inl (raise_continues (e := .unsupportedFilterType) (s := { s with ft := ft }) nofun hb h)

/-- A fetched element that is executed, or a fetch that raised. -/
theorem Run.element_continues {st : EngineState} {x : Run Nat} {f : Format} {t : State} (hx : x.Stays st)
    (hb : busyState st = true) (h : (x.element f).outcome = .next t) :
    Fails st t ∨ ∃ v u i, x = .ok v u ∧ u.st = st ∧ decode f (BitVec.ofNat 40 v) = .ok i ∧ formatOf i = f
      ∧ exec i u = .next t := by
  cases x with
  | ok v u =>
    obtain ⟨i, hd, hf, hexec⟩ := Turn.element_next h
    exact .inr ⟨v, u, i, rfl, hx, hd, hf, hexec⟩
  | raise e u =>
    obtain ⟨he, rfl⟩ := hx
    cases h
    exact .inl (.of_enterError rfl hb he)
  | fault f => cases h
  | refuse r => cases h

theorem huffDecode_stays {k : TableShape} (table : HuffTable k) (s : State) : (huffDecode table s).Stays s.st :=
  (huffDecode_all table s).imp (fun _ => trivial) (fun _ _ ⟨hm, _⟩ => by rw [hm])
    fun e _ ⟨he, hm⟩ => ⟨by rcases he with rfl | rfl <;> nofun, by rw [hm]⟩

/-- The symbol that decodes to EOB is 256 (R62). -/
theorem eq_eob {v : Nat} (hv : v < 2 ^ 40) (h : decode .litlenSymbol (BitVec.ofNat 40 v) = .ok .eob) : v = 256 := by
  obtain ⟨-, henc, -⟩ := encodeOfDecode _ _ _ h
  have hnat := congrArg BitVec.toNat henc
  rw [BitVec.toNat_ofNat, Nat.mod_eq_of_lt hv] at hnat
  exact hnat.symm

/-! ### The stored block -/

/-- A copy that runs through has appended its `n` bytes and ends the block (R104). -/
theorem copyStored_ends (n : Nat) (s : State) :
    (copyStored n s).All True
      (fun _ t => t.st = (if s.bfinal = 1#1 then .trailer else .blockHeader) ∧ t.outCount = s.outCount + BitVec.ofNat 32 n)
      (fun e t => e ≠ .noError ∧ t.st = s.st) := by
  induction n generalizing s with
  | zero => exact ⟨rfl, (BitVec.add_zero s.outCount).symm⟩
  | succ n ih =>
    refine Run.All.bind ((readByte_all s).imp (fun _ => trivial) (fun _ _ h => h)
      fun e t ⟨he, hm⟩ => ⟨by rw [he]; nofun, by rw [hm]⟩) ?_
    rintro b u ⟨hu, -⟩
    refine Run.All.bind ((emit_all b u).imp (fun _ => trivial) (fun _ _ h => h)
      fun e t ⟨he, _, ht⟩ => ⟨by rw [he]; nofun, by rw [ht, hu]⟩) ?_
    rintro - v ⟨-, -, rfl⟩
    refine (ih _).imp id ?_ ?_
    · rintro - t ⟨hst, hcount⟩
      refine ⟨hst.trans (by rw [hu]), hcount.trans ?_⟩
      show u.outCount + 1 + BitVec.ofNat 32 n = _
      rw [hu.outCount, Nat.add_comm n, BitVec.ofNat_add, BitVec.add_assoc]
      rfl
    · rintro e t ⟨he, hst⟩
      exact ⟨he, hst.trans (by rw [hu])⟩

/-- Operation STORED_BLOCK leaves its state with LEN bytes appended or by a raise (R103, R104). -/
theorem step_storedBlock_ends {s t : State} (hm : engineMoves s) (hst : s.st = .storedBlock) (ht : tableReadable s)
    (hs : s.cur.sound) (h : step s = .next t) :
    Fails s.st t ∨ t.st = (if s.bfinal = 1#1 then .trailer else .blockHeader)
      ∧ ∃ b0 b1 n0 n1 rest, alignedBytes s = b0 :: b1 :: n0 :: n1 :: rest
        ∧ t.outCount = s.outCount + BitVec.ofNat 32 (b0.toNat + 256 * b1.toNat) := by
  have hb : s.busy = true := by rw [State.busy, hst]; rfl
  by_cases hlen : (alignedBytes s).length < 4
  · rw [step_storedBlock_truncated hm hst ht hs hlen] at h
    cases h
    exact .inl (tickHost_st s ▸ .of_enterError rfl (by rwa [State.busy, tickHost_st]) nofun)
  obtain ⟨b0, b1, n0, n1, rest, haligned⟩ : ∃ b0 b1 n0 n1 rest, alignedBytes s = b0 :: b1 :: n0 :: n1 :: rest := by
    obtain ⟨b0, b1, n0, n1, htake⟩ := List.length_eq_four.1 (List.length_take_of_le (not_lt.1 hlen))
    exact ⟨b0, b1, n0, n1, _, (List.take_append_drop 4 _).symm.trans (by rw [htake]; rfl)⟩
  obtain ⟨u, hstep, hu, -⟩ := step_storedBlock_copy hm hst ht hs haligned rfl
  rw [hstep] at h
  have hust : u.st = s.st := by rw [hu]; exact tickHost_st s
  rcases (copyStored_ends _ u).finish h with ⟨hend, hcount⟩ | ⟨e, v, ⟨he, hv⟩, ht⟩
  · refine .inr ⟨hend.trans (by rw [hu]; simp), b0, b1, n0, n1, rest, haligned, hcount.trans (by rw [hu]; simp)⟩
  · rw [← hust, ← hv]
    exact .inl (.of_enterError ht (by rw [State.busy, hv, hust]; exact hb) he)

end Sys2Proof.Machine
end

section
/-! PROOFS. The transition table (10_state R98): a step of the engine by its state, and a step of the host by its write. -/

namespace Sys2Proof.Machine

/-! ### The engine -/

/-- The changes of STATE that R98 lists for the engine, each with its event. -/
inductive EngineChange (s t : State) : Prop
  | continues (h : Continues s.st t)
  | checkPassed (h : s.st = .configCheck ∧ t.st = .zlibHeader
      ∧ ∃ u, configCheckWith Config.maxWorkBytes (tickHost s) = .ok () u)
  | headerRead (h : s.st = .zlibHeader ∧ t.st = .blockHeader
      ∧ ∃ cmf flg rest, restBytes s = cmf :: flg :: rest ∧ cmf.toNat % 16 = 8)
  | storedType (h : s.st = .blockHeader ∧ t.btype = 0#2 ∧ t.st = .storedBlock)
  | fixedType (h : s.st = .blockHeader ∧ t.btype = 1#2 ∧ t.st = .fixedTables)
  | dynamicType (h : s.st = .blockHeader ∧ t.btype = 2#2 ∧ t.st = .dynamicTables)
  | bytesCopied (h : s.st = .storedBlock ∧ t.st = (if s.bfinal = 1#1 then .trailer else .blockHeader)
      ∧ ∃ b0 b1 n0 n1 rest, alignedBytes s = b0 :: b1 :: n0 :: n1 :: rest
        ∧ t.outCount = s.outCount + BitVec.ofNat 32 (b0.toNat + 256 * b1.toNat))
  | blockEnded (h : s.st = .blockBody ∧ t.st = (if s.bfinal = 1#1 then .trailer else .blockHeader)
      ∧ ∃ u, huffDecode s.ll (tickHost s) = .ok 256 u)
  | fixedBuilt (h : s.st = .fixedTables ∧ t.st = .blockBody
      ∧ ∃ d e, t.ll = build llShape fixedLitlenLengths d ∧ t.dt = build dtShape fixedDistLengths e)
  | dynamicBuilt (h : s.st = .dynamicTables ∧ t.st = .blockBody
      ∧ s.phase = .clSymbols ∧ s.dyn.nl.toNat = s.dyn.hlit.toNat + s.dyn.hdist.toNat
      ∧ ∃ d e, t.ll = build llShape (lensSlice s 0 s.dyn.hlit.toNat) d
        ∧ t.dt = build dtShape (lensSlice s s.dyn.hlit.toNat s.dyn.hdist.toNat) e)
  | trailerRead (h : s.st = .trailer ∧ t.st = .sizeCheck ∧ 4 ≤ (alignedBytes s).length)
  | sizeReached (h : s.st = .sizeCheck ∧ s.outCount = s.sizes.workSize ∧ t.st = .filter ∧ t.row = 0)
  | lastRow (h : s.st = .filter ∧ t.st = .done ∧ t.row = s.lat.h)

/-- A step into the error entry of a state with STATE as before. -/
theorem EngineChange.of_raise {s t u : State} {e : ErrorCode} (hstep : step s = .next (enterError e u))
    (h : step s = .next t) (hb : s.busy = true) (hu : u.st = s.st) (he : e ≠ .noError) : EngineChange s t := by
  rw [hstep] at h
  cases h
  exact .continues (.inr (hu ▸ .of_enterError rfl (by rw [State.busy, hu]; exact hb) he))

section
variable {s t : State} (hi : Inv s) (hm : engineMoves s) (h : step s = .next t)
include hm h

theorem configCheck_change (hst : s.st = .configCheck) : EngineChange s t := by
  have hstep : step s = (configCheckWith Config.maxWorkBytes (tickHost s)).finish := by
    rw [step_engine hm, engineTurn, tickHost_st, hst]; rfl
  have hb : s.busy = true := by rw [State.busy, hst]; rfl
  have hall := configCheckWith_all Config.maxWorkBytes (tickHost s)
  rw [hstep] at h
  cases hx : configCheckWith Config.maxWorkBytes (tickHost s) with
  | ok a u =>
    rw [hx] at hall h
    cases h
    obtain ⟨bpp, -, -, -, -, -, -, -, v, -, -, ht⟩ := hall
    exact .checkPassed ⟨hst, by rw [ht]; rfl, t, hx⟩
  | raise e u =>
    rw [hx] at hall h
    obtain ⟨he, l, rfl⟩ := hall
    have hne : e ≠ .noError := by rcases he with rfl | rfl <;> nofun
    exact .of_raise (hstep.trans (congrArg Run.finish hx)) (hstep.trans (by rw [hx]; exact h)) hb (tickHost_st s) hne
  | fault f => rw [hx] at h; cases h
  | refuse r => rw [hx] at h; cases h

theorem fixedTables_change (hst : s.st = .fixedTables) : EngineChange s t := by
  obtain ⟨d, e, n, hstep⟩ := fixedTablesOperation s hm hst
  cases hstep.symm.trans h
  exact .fixedBuilt ⟨hst, rfl, d, e, rfl, rfl⟩

theorem sizeCheck_change (hst : s.st = .sizeCheck) : EngineChange s t := by
  obtain ⟨hshort, hfull⟩ := sizeCheckOperation s hm hst
  by_cases hcount : s.outCount = s.sizes.workSize
  · cases (hfull hcount).symm.trans h
    exact .sizeReached ⟨hst, hcount, rfl, rfl⟩
  · exact .of_raise (hshort hcount) h (busy_of_decoding (decoding_of_st hst rfl)) (tickHost_st s) nofun

include hi

theorem zlibHeader_change (hst : s.st = .zlibHeader) : EngineChange s t := by
  have hd := decoding_of_st hst rfl
  have hb := busy_of_decoding hd
  obtain ⟨hnone, hmethod, hlone, hheader⟩ := zlibHeaderOperation s hm hst (hi.aligned hst) (hi.tableReadable hd)
  match hr : restBytes s with
  | [] => exact .of_raise (hnone hr) h hb (tickHost_st s) nofun
  | cmf :: rest =>
    by_cases hcm : cmf.toNat % 16 = 8
    · match rest, hr with
      | [], hr => exact .of_raise (hlone cmf hr hcm) h hb (tickHost_st s) nofun
      | flg :: rest, hr =>
        obtain ⟨c, hstep, -⟩ := hheader cmf flg rest hr hcm
        cases hstep.symm.trans h
        exact .headerRead ⟨hst, rfl, cmf, flg, rest, hr, hcm⟩
    · exact .of_raise (hmethod cmf rest hr hcm) h hb (tickHost_st s) nofun

theorem blockHeader_change (hst : s.st = .blockHeader) : EngineChange s t := by
  have hd := decoding_of_st hst rfl
  have hb := busy_of_decoding hd
  obtain ⟨hnone, hcut, hheader⟩ := blockHeaderOperation s hm hst (hi.tableReadable hd)
  match hr : restBits s with
  | [] => exact .of_raise (hnone hr) h hb (tickHost_st s) nofun
  | [f] => exact .of_raise (hcut f [] hr (by simp)) h hb (tickHost_st s) nofun
  | [f, lo] => exact .of_raise (hcut f [lo] hr (by simp)) h hb (tickHost_st s) nofun
  | f :: lo :: hi :: rest =>
    obtain ⟨c, -, htypes⟩ := hheader f lo hi rest hr
    obtain ⟨hstored, hfixed, hdynamic, hreserved⟩ := htypes _ rfl
    cases hi <;> cases lo
    · cases (hstored rfl rfl).symm.trans h
      exact .storedType ⟨hst, rfl, rfl⟩
    · cases (hfixed rfl rfl).symm.trans h
      exact .fixedType ⟨hst, rfl, rfl⟩
    · cases (hdynamic rfl rfl).symm.trans h
      exact .dynamicType ⟨hst, rfl, rfl⟩
    · exact .of_raise (hreserved rfl rfl) h hb (tickHost_st s) nofun

theorem storedBlock_change (hst : s.st = .storedBlock) : EngineChange s t := by
  have hd := decoding_of_st hst rfl
  rcases step_storedBlock_ends hm hst (hi.tableReadable hd) (hi.sound hd) h with hf | hend
  · exact .continues (.inr hf)
  · exact .bytesCopied ⟨hst, hend⟩

theorem dynamicTables_change (hst : s.st = .dynamicTables) : EngineChange s t := by
  have hd := decoding_of_st hst rfl
  obtain ⟨hread, hcut⟩ := dynamicHeaderOperation s clOrder _ hm hst (hi.tableReadable hd) rfl rfl
  rcases le_or_gt (14 + 3 * (bitsValue (((restBits s).drop 10).take 4) + 4)) (restBits s).length with hlen | hlen
  · obtain ⟨c, cl, d, n, hstep, -⟩ := hread hlen
    cases hstep.symm.trans h
    exact .continues (.inl (tickHost_st s))
  · obtain ⟨d, hstep⟩ := hcut (.inr hlen)
    exact .of_raise hstep h (busy_of_decoding hd) (tickHost_st s) nofun

theorem blockBody_change (hst : s.st = .blockBody) : EngineChange s t := by
  have hb := busy_of_decoding (decoding_of_st hst rfl)
  obtain ⟨⟨lens, d, hlens, hll⟩, -⟩ := hi.tablesBuilt hst
  rw [step_eq, turn_blockBody hm hst] at h
  have hstays := huffDecode_stays s.ll (tickHost s)
  rw [tickHost_st] at hstays
  rcases Run.element_continues hstays hb h with hf | ⟨v, u, i, hx, hu, hdec, hf, hexec⟩
  · exact .continues (.inr hf)
  rcases exec_litlenSymbol_continues hf (by rw [State.busy, hu]; exact hb) hexec with hc | ⟨rfl, rfl⟩
  · exact .continues (hu ▸ hc)
  · have hbuild := huffDecode_build llShape_fits d hlens (tickHost s)
    rw [← hll, hx] at hbuild
    obtain ⟨hmoves, hv, -⟩ := hbuild
    obtain rfl := eq_eob ((hv.trans_le hlens).trans (by decide)) hdec
    refine .blockEnded ⟨hst, ?_, u, hx⟩
    rw [blockEnd_st, hmoves, tickHost_bfinal]
    rfl

theorem trailer_change (hst : s.st = .trailer) : EngineChange s t := by
  have hd := decoding_of_st hst rfl
  obtain ⟨hcut, hread⟩ := trailerOperation s hm hst (hi.tableReadable hd) (hi.sound hd)
  rcases lt_or_ge (alignedBytes s).length 4 with hlen | hlen
  · exact .of_raise (hcut hlen) h (busy_of_decoding hd) (tickHost_st s) nofun
  · obtain ⟨c, hstep, -⟩ := hread hlen
    cases hstep.symm.trans h
    exact .trailerRead ⟨hst, rfl, hlen⟩

theorem filter_change (hst : s.st = .filter) : EngineChange s t := by
  rw [step_engine hm, engineTurn, tickHost_st, hst] at h
  have hfetch := Run.All.bind (k := fun b u => .ok b.toNat u) (Q := fun _ u => u = tickHost s)
    (R := fun _ _ => False)
    ((memRead_all (filterTypeAddress (tickHost s)) (tickHost s)).imp id (fun _ _ h => h) fun _ _ h => h.elim)
    fun _ _ ⟨hu, _⟩ => hu
  rcases hfetch.element_next h with ⟨v, u, i, rfl, hf, hexec⟩ | ⟨_, _, hno, _⟩
  · have htick : Inv (tickHost s) := by rw [tickHost_eq]; exact { hi with }
    have hchange := exec_filterType_continues htick (tickHost_st s ▸ hst) hf hexec
    rw [tickHost_st, tickHost_lat] at hchange
    exact hchange.elim .continues fun hlast => .lastRow ⟨hst, hlast⟩
  · exact hno.elim

theorem boundary_change : EngineChange s t := by
  match hst : s.st with
  | .idle | .done | .error =>
    rw [step_engine hm, engineTurn, tickHost_st, hst] at h
    cases h
    exact .continues (.inl (tickHost_st s))
  | .configCheck => exact configCheck_change hm h hst
  | .zlibHeader => exact zlibHeader_change hi hm h hst
  | .blockHeader => exact blockHeader_change hi hm h hst
  | .storedBlock => exact storedBlock_change hi hm h hst
  | .fixedTables => exact fixedTables_change hm h hst
  | .dynamicTables => exact dynamicTables_change hi hm h hst
  | .blockBody => exact blockBody_change hi hm h hst
  | .trailer => exact trailer_change hi hm h hst
  | .sizeCheck => exact sizeCheck_change hm h hst
  | .filter => exact filter_change hi hm h hst

end

/-- Between two elements of an operation too, the engine changes STATE as R98 says. -/
theorem engine_change {s t : State} (hi : Inv s) (hm : s.phase = .boundary → engineMoves s) (h : step s = .next t) :
    EngineChange s t := by
  match hp : s.phase with
  | .boundary => exact boundary_change hi (hm hp) h
  | .clSymbols =>
    have hst := hi.codePhase hp
    have hb := busy_of_decoding (decoding_of_st hst rfl)
    by_cases hn : s.dyn.nl.toNat = s.dyn.hlit.toNat + s.dyn.hdist.toNat
    · cases (step_lengthsComplete hp hn).symm.trans h
      exact .dynamicBuilt ⟨hst, rfl, hp, hn, _, _, rfl, rfl⟩
    · rw [step_eq, turn_nextLength hp hn] at h
      rcases Run.element_continues (huffDecode_stays s.clt s) hb h with hf | ⟨v, u, i, -, hu, -, hf, hexec⟩
      · exact .continues (.inr hf)
      · exact .continues (hu ▸ exec_clSymbol_continues hf (by rw [State.busy, hu]; exact hb) hexec)
  | .distSymbol =>
    have hb := busy_of_decoding (decoding_of_st (hi.matchPhase hp) rfl)
    rw [step_eq, turn_distSymbol hp] at h
    rcases Run.element_continues (huffDecode_stays s.dt s) hb h with hf | ⟨v, u, i, -, hu, -, hf, hexec⟩
    · exact .continues (.inr hf)
    · exact .continues (hu ▸ exec_distSymbol_continues hf (by rw [State.busy, hu]; exact hb) hexec)

/-! ### The host -/

/-- A host write of the window is an ordinary move, or a 32-bit write of CTRL. -/
theorem regWriteTurn_move_or_ctrl {width : Nat} {offset : BitVec 8} {v : Word} {s t : State}
    (h : (regWriteTurn width offset v (popHost s)).outcome = .next t) : HostMove s t ∨ width = 4 ∧ offset = 0x00#8 := by
  unfold regWriteTurn at h
  split_ifs at h with ha hctrl
  · cases h
  · exact .inr ⟨((wordAccess_iff _ _).1 (by simpa using ha)).1, hctrl⟩
  · obtain ⟨i, -, hf, hi⟩ := Turn.element_next h
    obtain ⟨c, hc, h9⟩ := exec_regWrite hf (popHost s)
    rw [hc] at hi
    cases hi
    exact .inl ((HostMove.popHost s).trans (.writeConfig h9))
  · cases h
    exact .inl (.popHost s)

/-- The host's turn is an ordinary move, or a 32-bit write of CTRL. -/
theorem hostMoves_move_or_ctrl {a : HostAction} {s t : State} (hm : hostMoves s a) (h : step s = .next t) :
    HostMove s t ∨ ∃ v, hostWrites s 0x00#8 v := by
  rw [step_eq, turn_host hm] at h
  have hpop := HostMove.popHost s
  cases a with
  | regRead width offset => exact .inl (hpop.trans (.of_regRead h))
  | regWrite width offset v =>
    refine (regWriteTurn_move_or_ctrl h).imp id ?_
    rintro ⟨rfl, rfl⟩
    exact ⟨v, .inl hm⟩
  | busRead width addr =>
    cases ho : windowOffset addr with
    | some offset =>
      simp only [hostTurn, ho] at h
      exact .inl (hpop.trans (.of_regRead h))
    | none =>
      simp only [hostTurn, ho] at h
      cases h
  | busWrite width addr v =>
    cases ho : windowOffset addr with
    | some offset =>
      simp only [hostTurn, ho] at h
      refine (regWriteTurn_move_or_ctrl h).imp id ?_
      rintro ⟨rfl, rfl⟩
      exact ⟨v, .inr ⟨addr, ho, hm⟩⟩
    | none =>
      simp only [hostTurn, ho] at h
      cases h
  | memRead addr => exact .inl (hpop.trans (.of_memRead h))
  | memWrite addr byte => exact .inl (hpop.trans (.of_memWrite h))
  | openFile contents base place => exact .inl (hpop.trans (.of_openFile h))
  | openImage base len place => exact .inl (hpop.trans (.of_openImage h))
  | walkChunk => exact .inl (.of_walk h)
  | takeResult =>
    cases h
    exact .inl (hpop.trans (.takeResult _))

/-- The changes of STATE that R98 lists for the host: a START while BUSY = 0, and SOFT_RESET (R138). -/
inductive HostChange (s t : State) : Prop
  | stays (h : t.st = s.st)
  | starts (h : t.st = .configCheck ∧ s.busy = false
      ∧ ∃ v, hostWrites s 0x00#8 v ∧ v.getLsbD 0 = true ∧ v.getLsbD 1 = false)
  | resets (h : t.st = .idle ∧ ∃ v, hostWrites s 0x00#8 v ∧ v.getLsbD 1 = true)

theorem ctrlWrite_change {s t : State} {v : Word} (hw : hostWrites s 0x00#8 v) (h : step s = .next t) : HostChange s t := by
  rw [step_hostWrites hw, regWriteTurn_ctrl, Turn.outcome_element _ (decode_ctrlWrite v)] at h
  split_ifs at h with hreset hstart
  · cases h
    exact .resets ⟨rfl, v, hw, hreset⟩
  · cases h
    show HostChange s (if s.busy then _ else _)
    cases hb : s.busy with
    | true => exact .stays rfl
    | false => exact .starts ⟨rfl, hb, v, hw, hstart, Bool.eq_false_of_not_eq_true hreset⟩
  · cases h
    exact .stays rfl

theorem host_change {a : HostAction} {s t : State} (hm : hostMoves s a) (h : step s = .next t) : HostChange s t := by
  rcases hostMoves_move_or_ctrl hm h with hmove | ⟨v, hw⟩
  · exact .stays (by rw [hmove.frame])
  · exact ctrlWrite_change hw h

/-! ### The transition table -/

theorem step_change {s t : State} (hi : Inv s) (h : step s = .next t) : EngineChange s t ∨ HostChange s t := by
  rcases turn_cases s with hp | hp | hm | ⟨a, hm⟩
  · exact .inl (engine_change hi (fun hb => by rw [hp] at hb; cases hb) h)
  · exact .inl (engine_change hi (fun hb => by rw [hp] at hb; cases hb) h)
  · exact .inl (engine_change hi (fun _ => hm) h)
  · exact .inr (host_change hm h)

/-- Settles O10: the row of R98 for each change of the engine and of the host. -/
theorem onlyListedTransitions : Obligations.OnlyListedTransitions := by
  intro s t hi h
  rcases step_change hi h with he | hh
  · cases he with
    | continues h =>
      rcases h with hstays | hfails
      · exact .inl hstays
      · iterate 3 right
        exact .inl hfails
    | checkPassed h => (iterate 4 right); exact .inl h
    | headerRead h => (iterate 5 right); exact .inl h
    | storedType h => (iterate 6 right); exact .inl h
    | fixedType h => (iterate 7 right); exact .inl h
    | dynamicType h => (iterate 8 right); exact .inl h
    | bytesCopied h => (iterate 9 right); exact .inl h
    | blockEnded h => (iterate 10 right); exact .inl h
    | fixedBuilt h => (iterate 11 right); exact .inl h
    | dynamicBuilt h => (iterate 12 right); exact .inl h
    | trailerRead h => (iterate 13 right); exact .inl h
    | sizeReached h => (iterate 14 right); exact .inl h
    | lastRow h => (iterate 15 right); exact h
  · cases hh with
    | stays h => exact .inl h
    | starts h => exact .inr (.inl h)
    | resets h => exact .inr (.inr (.inl h))

end Sys2Proof.Machine
end

section
/-! PROOFS. The elements of the block body that append one byte, end the block or fail (44_block_body R117 to R125): the literal,
the end of block, the distance symbols whose match cannot be copied, and the invalid symbols. -/

namespace Sys2Proof.Machine

/-! ### The literal -/

/-- `emit` with the output full writes nothing (R117). -/
theorem emit_full {b : Byte} {s : State} (h : s.outCount = s.sizes.workSize) :
    emit b s = .raise .outputSizeMismatch s := by
  rw [emit, if_pos h]

/-- A literal is one `emit` (R118). -/
theorem exec_lit (b : Byte) (s : State) : exec (.lit b) s = (emit b s).finish := rfl

/-- Settles O36: `emit` has room and is one write at the output's end, or the output is full. -/
theorem literalElement : Obligations.LiteralElement := by
  intro b s
  rw [exec_lit]
  refine ⟨fun hroom hw => ?_, fun hfull => by rw [emit_full hfull, Run.finish_raise]⟩
  have hne : s.outCount ≠ s.sizes.workSize := fun h => hroom.ne (congrArg BitVec.toNat h)
  have haddr : s.lat.wbase.toNat + s.outCount.toNat < memBytes := by omega
  exact ⟨_, by rw [emit_ok hne haddr, Run.finish_ok], Memory.read_write_same _ _ _,
    fun _ ha => Memory.read_write_other _ _ ha, fun hwf => Memory.write_wf _ hwf haddr⟩

/-! ### The end of the block -/

/-- The end-of-block symbol is `blk_end()` (R119). -/
theorem exec_eob (s : State) : exec .eob s = .next (blockEnd s) := rfl

/-- Settles O37: `blk_end()` by the two values of BFINAL. -/
theorem endOfBlockElement : Obligations.EndOfBlockElement := by
  intro s
  rw [exec_eob]
  constructor
  · intro hfinal
    rw [blockEnd, if_pos (show s.bfinal = 1 from hfinal), goto]
  · intro hmore
    rw [blockEnd, if_neg (by rw [hmore]; decide), goto]

/-! ### The copy that does not fit -/

/-- A byte appended where there is room is a write of the work buffer (R117). -/
theorem WritesWork.append {s : State} (b : Byte) (hc : s.outCount.toNat < s.sizes.workSize.toNat)
    (hw : s.lat.wbase.toNat + s.sizes.workSize.toNat ≤ memBytes) :
    WritesWork s { s with
      mem := s.mem.write (s.lat.wbase.toNat + s.outCount.toNat) b, outCount := s.outCount + 1 } := by
  have hemit := emit_work b (s := s) ⟨hc.le, hw⟩
  rwa [emit_ok (fun h => hc.ne (congrArg BitVec.toNat h)) (by omega)] at hemit

/-- `copy()` (R122) of a match that passes WORK_SIZE: it fills the work buffer and raises at the first byte past it. -/
theorem copyMatch_overflow (n : Nat) {s : State} (hs : workPlaced s) (h1 : 1 ≤ s.copyDist.toNat)
    (hd : s.copyDist.toNat ≤ s.outCount.toNat) (hpast : s.sizes.workSize.toNat < s.outCount.toNat + n) :
    ∃ t, copyMatch n s = .raise .outputSizeMismatch t ∧ WritesWork s t ∧ t.outCount = s.sizes.workSize := by
  obtain ⟨hle, hw⟩ := hs
  induction n generalizing s with
  | zero => omega
  | succ n ih =>
    rcases hle.eq_or_lt with hfull | hroom
    · have hcount := BitVec.eq_of_toNat_eq hfull
      refine ⟨s, ?_, .refl hle, hcount⟩
      rw [copyMatch, memRead_ok _ (by omega), Run.bind_ok, emit_full hcount, Run.bind_raise]
    · have hcount := outCount_succ hroom
      have happend := WritesWork.append (s.mem.read (s.lat.wbase.toNat + s.outCount.toNat - s.copyDist.toNat)) hroom hw
      rw [copyMatch_succ hroom hw]
      obtain ⟨t, hcopy, hwrites, hend⟩ := ih (s := { s with
        mem := s.mem.write (s.lat.wbase.toNat + s.outCount.toNat)
          (s.mem.read (s.lat.wbase.toNat + s.outCount.toNat - s.copyDist.toNat))
        outCount := s.outCount + 1 }) h1 (hd.trans happend.le) (by simp only [hcount]; omega) happend.room hw
      exact ⟨t, hcopy, happend.trans hwrites, hend⟩

/-! ### The distance symbols -/

/-- A distance symbol whose extra bits are missing (R120). -/
theorem distanceSymbol_truncated {base ext : Nat} {s : State} (ht : tableReadable s) (h : (restBits s).length < ext) :
    distanceSymbol base ext s = .next (enterError .truncatedInput s) := by
  obtain ⟨t, hread, hmoves⟩ := readBits_end ht h
  rw [distanceSymbol, hread, Run.bind_raise, Run.finish_raise, hmoves.enterError]

section
variable {base ext dist : Nat} {s : State} (hbits : bitsLeft ext s) (hdist : dist = base + bitsValue ((restBits s).take ext))
  (hmax : dist ≤ 32768)
include hbits hdist hmax

/-- A distance symbol once its extra bits are read (R120): the distance is latched, checked (R121), and the match copied. -/
theorem distanceSymbol_reads : ∃ c : Cursor, distanceSymbol base ext s =
    if s.outCount.toNat < dist then
      .next (enterError .invalidDistance { s with cur := c, copyDist := BitVec.ofNat 16 dist })
    else
      ((copyMatch s.copyLen.toNat { s with cur := c, copyDist := BitVec.ofNat 16 dist }).bind fun _ t =>
        .ok () { t with phase := .boundary }).finish := by
  obtain ⟨c, hread, -⟩ := readBits_rest hbits
  have hlatch : (BitVec.ofNat 16 dist).toNat = dist := Nat.mod_eq_of_lt (by omega)
  refine ⟨c, ?_⟩
  rw [distanceSymbol, hread, Run.bind_ok, ← hdist]
  dsimp only
  rw [hlatch, apply_ite Run.finish, Run.finish_raise]

/-- A distance past the bytes output so far (R121). -/
theorem distanceSymbol_tooFar (hfar : s.outCount.toNat < dist) :
    distanceSymbol base ext s = .next (enterError .invalidDistance { s with copyDist := BitVec.ofNat 16 dist }) := by
  obtain ⟨c, hstep⟩ := distanceSymbol_reads hbits hdist hmax
  rw [hstep, if_pos hfar]
  exact congrArg _ ((MovesCursor.of { s with copyDist := BitVec.ofNat 16 dist } c).enterError _)

/-- A legal distance with a match that passes WORK_SIZE (R117, R122). -/
theorem distanceSymbol_overflow (h1 : 1 ≤ dist) (hd : dist ≤ s.outCount.toNat) (hs : workPlaced s)
    (hpast : s.sizes.workSize.toNat < s.outCount.toNat + s.copyLen.toNat) :
    ∃ (c : Cursor) (u : State), distanceSymbol base ext s = .next (enterError .outputSizeMismatch u)
      ∧ WritesWork { s with cur := c, copyDist := BitVec.ofNat 16 dist } u ∧ u.outCount = s.sizes.workSize := by
  obtain ⟨c, hstep⟩ := distanceSymbol_reads hbits hdist hmax
  have hlatch : (BitVec.ofNat 16 dist).toNat = dist := Nat.mod_eq_of_lt (by omega)
  obtain ⟨u, hcopy, hwrites⟩ := copyMatch_overflow s.copyLen.toNat
    (s := { s with cur := c, copyDist := BitVec.ofNat 16 dist }) hs (hlatch.symm ▸ h1) (hlatch.symm ▸ hd) hpast
  exact ⟨c, u, by rw [hstep, if_neg (not_lt.2 hd), hcopy, Run.bind_raise, Run.finish_raise], hwrites⟩

end

/-- Settles O40: the row's extra bits are missing, or its distance is latched and refused. -/
theorem distanceTooFarRaises : Obligations.DistanceTooFarRaises := by
  intro r hr s ht
  rw [exec_distanceRow hr]
  refine ⟨distanceSymbol_truncated ht, fun dist hext hdist hfar => ?_⟩
  obtain ⟨-, hhigh⟩ := distanceRow_range r hr
  have hextra := bitsValue_take_lt hext
  exact distanceSymbol_tooFar ⟨ht, hext⟩ hdist (by omega) hfar

/-- Settles O41: the copy fills the work buffer up to WORK_SIZE and raises there. -/
theorem copyPastWorkSizeRaises : Obligations.CopyPastWorkSizeRaises := by
  intro r hr s dist ht hext hdist hd hroom hpast hw
  obtain ⟨hlow, hhigh⟩ := distanceRow_range r hr
  have hextra := bitsValue_take_lt hext
  obtain ⟨c, u, hstep, hwrites, hend⟩ :=
    distanceSymbol_overflow ⟨ht, hext⟩ hdist (by omega) (by omega) hd ⟨hroom, hw⟩ hpast
  refine ⟨u, (exec_distanceRow hr s).trans hstep, ?_, hwrites.other⟩
  rw [← hend, hwrites.frame]

/-! ### The invalid symbols -/

/-- Settles O42: both meanings are a raise in the state they are given. -/
theorem invalidSymbolElements : Obligations.InvalidSymbolElements := by
  intro low s
  constructor
  · show execLlInvalid286To287 low s = _
    rw [execLlInvalid286To287, Run.finish_raise]
  · show execDistInvalid30To31 low s = _
    rw [execDistInvalid30To31, Run.finish_raise]

end Sys2Proof.Machine
end

section
/-! PROOFS. The filter types (45_filter R128 to R136): the invalid ones raise, `paeth` picks the nearest candidate, and the five
others reconstruct a row column by column. -/

namespace Sys2Proof.Machine

/-! ### The invalid filter types -/

/-- An unrecognized filter type raises with FT written (R136). -/
theorem filterInvalid_raises (ft : Byte) (s : State) :
    filterInvalid ft s = .next (enterError .unsupportedFilterType { s with ft := ft }) := by
  rw [filterInvalid, Run.finish_raise]

/-- A filter-type row whose byte is above 4 is an unrecognized type, and FT is that byte (R64, R136). -/
theorem exec_filterType_above4 {i : Instr} (hf : formatOf i = .filterType) (h : 4 < (encode i).toNat) (s : State) :
    exec i s = filterInvalid ((encode i).setWidth 8) s := by
  have hbyte (ft : Byte) : filterInvalid ft s = filterInvalid ((ft.setWidth 40).setWidth 8) s := by
    rw [BitVec.setWidth_setWidth_of_le _ (by decide), BitVec.setWidth_eq]
  match i, hf with
  | .ftNone, _ | .ftSub, _ | .ftUp, _ | .ftAverage, _ | .ftPaeth, _ => exact absurd h (by decide)
  | .ftInvalid5, _ => rfl
  | .ftInvalid6To7 _, _ | .ftInvalid08To0F _, _ | .ftInvalid10To1F _, _ | .ftInvalid20To3F _, _ | .ftInvalid40To7F _, _
  | .ftInvalid80ToFF _, _ => exact hbyte _

/-- Every byte is a row of the filter types, and it comes back from the row (R64, R72). -/
theorem decode_filterType_byte (b : Byte) :
    ∃ i, decode .filterType (BitVec.ofNat 40 b.toNat) = .ok i ∧ formatOf i = .filterType ∧ encode i = b.setWidth 40 := by
  have hlt : (BitVec.ofNat 40 b.toNat).toNat < 2 ^ 8 := by bv_omega
  obtain ⟨i, hi⟩ := (decodeTotal .filterType _).2 ⟨hlt, nofun, nofun, nofun, nofun⟩
  obtain ⟨hf, he, -⟩ := encodeOfDecode .filterType _ i hi
  exact ⟨i, hi, hf, he.trans (BitVec.ofNat_toNat 40 b)⟩

/-- Settles O45: the type byte decodes to a row above 4, and each of those rows raises in the state it is given. -/
theorem invalidFilterElements : Obligations.InvalidFilterElements := by
  refine ⟨fun s hm hst ha h4 => ?_, fun _ _ _ _ _ _ s => ⟨filterInvalid_raises _ s, filterInvalid_raises _ s,
    filterInvalid_raises _ s, filterInvalid_raises _ s, filterInvalid_raises _ s, filterInvalid_raises _ s,
    filterInvalid_raises _ s⟩⟩
  obtain ⟨i, hdecode, hf, hencode⟩ := decode_filterType_byte (s.mem.read (filterTypeAddress s))
  have habove : 4 < (encode i).toNat := by rwa [hencode, BitVec.toNat_setWidth_of_le (by decide)]
  rw [step_fetched (turn_filter hm hst ha) rfl hdecode, exec_filterType_above4 hf habove, filterInvalid_raises, hencode,
    BitVec.setWidth_setWidth_of_le _ (by decide), BitVec.setWidth_eq]

/-! ### The Paeth predictor -/

/-- `paeth` (R135) by the candidates' distances to `a + b - c`. -/
theorem paeth_eq {a b c : Nat} {dist : Nat → Nat} (h : ∀ x, dist x = ((a : Int) + b - c - x).natAbs) :
    paeth a b c = if dist a ≤ dist b ∧ dist a ≤ dist c then a else if dist b ≤ dist c then b else c := by
  simp only [h]
  rfl

/-- Settles O44: the three branches of `paeth`, each of which takes a candidate of least distance. -/
theorem paethChoice : Obligations.PaethChoice := by
  intro a b c dist hdist
  rw [paeth_eq hdist]
  refine ⟨fun ha => if_pos ha, fun ha hb => ?_, fun ha hb => ?_, fun x hx => ?_⟩
  · rw [if_neg ha, if_pos hb]
  · rw [if_neg ha, if_neg hb]
  · rcases hx with rfl | rfl | rfl <;> split_ifs <;> omega

/-! ### A row of the filter pass: its addresses -/

section
variable {s : State} {col : Nat} (h : filterReady s) (hcol : col < s.lat.stride.toNat)
include h hcol

/-- A filtered byte of the row lies in the work buffer (R64, R140). -/
theorem filterReady.inWork_filtered : inWork s (filteredAddress s s.row.toNat col) := by
  obtain ⟨-, -, ⟨-, -, -, -, -, hwork, -⟩, -, -, hrow⟩ := h
  have hnext := Nat.mul_le_mul_right (1 + s.lat.stride.toNat) (Nat.succ_le_of_lt hrow)
  rw [Nat.succ_mul, ← hwork] at hnext
  unfold inWork filteredAddress
  rw [Nat.add_comm s.lat.stride.toNat 1]
  omega

/-- A byte of the output row lies in the output buffer (R140). -/
theorem filterReady.inOut_row : inOut s (outAddress s s.row.toNat col) := by
  obtain ⟨-, -, ⟨-, -, -, -, -, -, hout⟩, -, -, hrow⟩ := h
  have hnext := Nat.mul_le_mul_right s.lat.stride.toNat (Nat.succ_le_of_lt hrow)
  rw [Nat.succ_mul, ← hout] at hnext
  unfold inOut outAddress
  omega

/-- The filtered bytes of the row stand outside the output row (R42 duty 2). -/
theorem filterReady.filtered_outside : filteredAddress s s.row.toNat col < outAddress s s.row.toNat 0
    ∨ outAddress s s.row.toNat s.lat.stride.toNat ≤ filteredAddress s s.row.toNat col := by
  by_contra hin
  have hwork := h.inWork_filtered hcol
  have ⟨_, _, _, _, hapart, _⟩ := h
  obtain ⟨k, hk⟩ := Nat.exists_eq_add_of_le (show outAddress s s.row.toNat 0 ≤ filteredAddress s s.row.toNat col by omega)
  have haddr : filteredAddress s s.row.toNat col = outAddress s s.row.toNat k := by unfold outAddress at *; omega
  have hklt : k < s.lat.stride.toNat := by unfold outAddress at *; omega
  exact hapart _ ⟨hwork, haddr ▸ h.inOut_row hklt⟩

end

/-- The output row above stands before the output row (R128). -/
theorem outAddress_above_lt {s : State} {col : Nat} (hrow : 1 ≤ s.row.toNat) (hcol : col < s.lat.stride.toNat) :
    outAddress s (s.row.toNat - 1) col < outAddress s s.row.toNat 0 := by
  have hprev : (s.row.toNat - 1 + 1) * s.lat.stride.toNat = s.row.toNat * s.lat.stride.toNat := by
    rw [Nat.sub_add_cancel hrow]
  rw [Nat.succ_mul] at hprev
  unfold outAddress
  omega

/-! ### A row of the filter pass: its columns -/

/-- The byte that R128 writes at a column, over the memory in which the columns before it are reconstructed. -/
def reconstructedByte (pred : Predictor) (s : State) (m : Memory) (col : Nat) : Nat :=
  filteredByte s col + pred (leftByte s m col) (aboveByte s col) (aboveLeftByte s col)

/-- `rowReconstructed` for the first `n` columns: what the loop of R128 keeps. -/
def columnsReconstructed (pred : Predictor) (s : State) (n : Nat) (m : Memory) : Prop :=
  (∀ col, col < n → (m.read (outAddress s s.row.toNat col)).toNat = reconstructedByte pred s m col % 256)
    ∧ ∀ a, (a < outAddress s s.row.toNat 0 ∨ outAddress s s.row.toNat n ≤ a) → m.read a = s.mem.read a

theorem rowReconstructed_iff {pred : Predictor} {s : State} {m : Memory} :
    rowReconstructed pred s m ↔ columnsReconstructed pred s s.lat.stride.toNat m := Iff.rfl

/-- A column is no left neighbour of itself or of a column before it (R129). -/
theorem leftByte_write {s : State} (hbpp : 0 < s.lat.bpp.toNat) {col n : Nat} (hcol : col ≤ n) (m : Memory) (b : Byte) :
    leftByte s (m.write (outAddress s s.row.toNat n) b) col = leftByte s m col := by
  unfold leftByte
  split
  · rw [Memory.read_write_other _ _ (by unfold outAddress; omega)]
  · rfl

theorem reconstructedByte_write {pred : Predictor} {s : State} (hbpp : 0 < s.lat.bpp.toNat) {col n : Nat} (hcol : col ≤ n)
    (m : Memory) (b : Byte) :
    reconstructedByte pred s (m.write (outAddress s s.row.toNat n) b) col = reconstructedByte pred s m col := by
  rw [reconstructedByte, leftByte_write hbpp hcol, reconstructedByte]

/-- The byte of R128 written at the next column reconstructs that column and leaves the others. -/
theorem columnsReconstructed.write {pred : Predictor} {s : State} {m : Memory} {n : Nat} (hbpp : 0 < s.lat.bpp.toNat)
    (h : columnsReconstructed pred s n m) : columnsReconstructed pred s (n + 1)
      (m.write (outAddress s s.row.toNat n) (BitVec.ofNat 8 (reconstructedByte pred s m n))) := by
  obtain ⟨hdone, hother⟩ := h
  refine ⟨fun col hcol => ?_, fun a ha => ?_⟩
  · rw [reconstructedByte_write hbpp (Nat.le_of_lt_succ hcol)]
    rcases (Nat.le_of_lt_succ hcol).eq_or_lt with rfl | hbefore
    · rw [Memory.read_write_same, BitVec.toNat_ofNat]
    · rw [Memory.read_write_other _ _ (by unfold outAddress; omega), hdone col hbefore]
  · rw [Memory.read_write_other _ _ (by unfold outAddress at *; omega)]
    exact hother a (by unfold outAddress at *; omega)

section
variable {pred : Predictor} {s : State} {m : Memory} {n col : Nat} (hm : columnsReconstructed pred s n m)
include hm

/-- The filtered row is as before the row (R42 duty 2). -/
theorem columnsReconstructed.filteredByte_eq (h : filterReady s) (hn : n ≤ s.lat.stride.toNat)
    (hcol : col < s.lat.stride.toNat) :
    (m.read (filteredAddress s s.row.toNat col)).toNat = filteredByte s col := by
  have houtside := h.filtered_outside hcol
  rw [filteredByte, hm.2 _ (by unfold outAddress at *; omega)]

/-- The output row above is as before the row (R128, R129). -/
theorem columnsReconstructed.aboveByte_eq (hcol : col < s.lat.stride.toNat) :
    (if 1 ≤ s.row.toNat then m.read (outAddress s (s.row.toNat - 1) col) else 0).toNat = aboveByte s col := by
  unfold aboveByte
  split
  next hrow => rw [hm.2 _ (.inl (outAddress_above_lt hrow hcol))]
  next => rfl

/-- The same one pixel to the left. -/
theorem columnsReconstructed.aboveLeftByte_eq (hcol : col < s.lat.stride.toNat) :
    (if 1 ≤ s.row.toNat ∧ s.lat.bpp.toNat ≤ col then m.read (outAddress s (s.row.toNat - 1) (col - s.lat.bpp.toNat))
      else 0).toNat = aboveLeftByte s col := by
  unfold aboveLeftByte
  split
  next hpresent => rw [hm.2 _ (.inl (outAddress_above_lt hpresent.1 (by omega)))]
  next => rfl

end

/-- The left neighbour (R129) as the loop reads it. -/
theorem leftByte_eq (s : State) (m : Memory) (col : Nat) :
    (if s.lat.bpp.toNat ≤ col then m.read (outAddress s s.row.toNat (col - s.lat.bpp.toNat)) else 0).toNat
      = leftByte s m col := by
  unfold leftByte
  split <;> rfl

section
variable {pred : Predictor} {s : State} (h : filterReady s)
include h

/-- One column of the loop (R128): it writes the byte of `reconstructedByte` and moves COL. -/
theorem filterByte_reconstructs {m : Memory} {col : Word} (ft : Byte) (hcol : col.toNat < s.lat.stride.toNat)
    (hm : columnsReconstructed pred s col.toNat m) :
    filterByte pred { s with ft := ft, col := col, mem := m } = .ok ()
      { s with
        ft := ft
        col := col + 1
        mem := m.write (outAddress s s.row.toNat col.toNat) (BitVec.ofNat 8 (reconstructedByte pred s m col.toNat)) } := by
  have ⟨_, _, _, ⟨_, hwork, hout⟩, _, _⟩ := h
  have hread := (h.inWork_filtered hcol).2
  have hwrite := (h.inOut_row hcol).2
  rw [reconstructedByte, ← hm.filteredByte_eq h hcol.le hcol, ← hm.aboveByte_eq hcol, ← hm.aboveLeftByte_eq hcol,
    ← leftByte_eq]
  exact filterByte_ok pred { s with ft := ft, col := col, mem := m } (hread.trans_le hwork) (hwrite.trans_le hout)

/-- The loop of R128 from a column to the end of the row. -/
theorem filterColumns_reconstructs (ft : Byte) {n : Nat} {m : Memory} {col : Word}
    (hn : col.toNat + n = s.lat.stride.toNat) (hm : columnsReconstructed pred s col.toNat m) :
    ∃ m' col', filterColumns pred n { s with ft := ft, col := col, mem := m }
        = .ok () { s with ft := ft, col := col', mem := m' } ∧ rowReconstructed pred s m' := by
  have hbpp : 0 < s.lat.bpp.toNat := by
    obtain ⟨-, -, ⟨hbpp | hbpp, -⟩, -⟩ := h <;> rw [hbpp] <;> decide
  induction n generalizing m col with
  | zero =>
    have hend : col.toNat = s.lat.stride.toNat := hn
    exact ⟨m, col, rfl, rowReconstructed_iff.2 (hend ▸ hm)⟩
  | succ n ih =>
    have hlt : col.toNat < s.lat.stride.toNat := by omega
    have hnext : (col + 1).toNat = col.toNat + 1 := by bv_omega
    rw [filterColumns, filterByte_reconstructs h ft hlt hm, Run.bind_ok]
    exact ih (by omega) (hnext ▸ hm.write hbpp)

/-- A filter type 0 to 4 reconstructs its row and ends it (R128). -/
theorem filterRow_reconstructs (ft : Byte) (pred : Predictor) : ∃ (m : Memory) (col : Word),
    filterRow ft pred s = .next (rowEnd { s with ft := ft, col := col, mem := m }) ∧ rowReconstructed pred s m := by
  obtain ⟨m, col, hrun, hrow⟩ := filterColumns_reconstructs (pred := pred) (m := s.mem) (col := 0) h ft (Nat.zero_add _)
    ⟨nofun, fun _ _ => rfl⟩
  exact ⟨m, col, by rw [filterRow, hrun, Run.bind_ok, Run.finish_ok], hrow⟩

end

/-- The end of a row in the filter pass (R128). -/
theorem rowEnd_eq {s : State} (hst : s.st = .filter) (hp : s.phase = .boundary) :
    rowEnd s = { s with row := s.row + 1, st := if s.row + 1 = s.lat.h then .done else .filter } := by
  unfold rowEnd
  dsimp only
  split
  next hlast => exact goto_of_boundary (s := { s with row := s.row + 1 }) .done hp
  next => rw [← hst]

/-- Settles O43: each of the five types runs the loop with its predictor, and the row ends. -/
theorem filterElements : Obligations.FilterElements := by
  intro i ft pred s htype h
  have hexec : exec i s = filterRow ft pred s := by
    rcases htype with ⟨rfl, rfl, rfl⟩ | ⟨rfl, rfl, rfl⟩ | ⟨rfl, rfl, rfl⟩ | ⟨rfl, rfl, rfl⟩ | ⟨rfl, rfl, rfl⟩ <;> rfl
  obtain ⟨m, col, hrun, hrow⟩ := filterRow_reconstructs h ft pred
  obtain ⟨hst, hphase, -⟩ := h
  have hend := rowEnd_eq (s := { s with ft := ft, col := col, mem := m }) hst hphase
  exact ⟨m, col, by rw [hexec, hrun, hend], hrow⟩

end Sys2Proof.Machine
end

section
/-! PROOFS. The host's commands (46_control R138 to R145): the CTRL write and its order, the read of STATUS, and the writes of
the configuration and the read-only registers. -/

namespace Sys2Proof.Machine

/-! ### CTRL writes -/

section
variable {irqEn : BitVec 1} {reserved : BitVec 29} {s : State}

/-- START with BUSY = 0 is accepted after IRQ_EN is written (R138, R139). -/
theorem exec_start_ready (hb : s.busy = false) :
    exec (.start irqEn reserved) s = .next (acceptStart { s with irqEn := irqEn == 1#1 }) :=
  congrArg Host.Outcome.next (if_neg (ne_true_of_eq_false hb))

/-- START with BUSY = 1 writes IRQ_EN only (R138). -/
theorem exec_start_busy (hb : s.busy = true) :
    exec (.start irqEn reserved) s = .next { s with irqEn := irqEn == 1#1 } :=
  congrArg Host.Outcome.next (if_pos hb)

end

/-- Outside CONFIG_CHECK the regions of the last decode are those of its latches and sizes (R40). -/
theorem withLent_latched {s : State} (hst : s.st ≠ .configCheck) (e : LentRegions) :
    withLent s e =
      ⟨workRegion s :: outRegion s :: e.buffers,
        tableRegion s.lat.segtab.toNat s.lat.nseg.toNat
          :: (List.range s.lat.nseg.toNat).map (segmentRegion s.mem s.lat.segtab.toNat) ++ e.input⟩ := by
  unfold withLent lentBuffers lentInput lentTable
  rw [if_neg hst, if_neg hst]
  rfl

/-- Settles O46: with BUSY = 0 STATE is not CONFIG_CHECK, so the ledger takes the latched regions of the decode before. -/
theorem startCommand : Obligations.StartCommand := by
  refine fun irqEn reserved s => ⟨fun hb => ?_, exec_start_busy⟩
  have hst : s.st ≠ .configCheck := fun h => by rw [State.busy, h] at hb; cases hb
  rw [exec_start_ready hb]
  unfold acceptStart goto
  cases hloan : s.loan with
  | none => rfl
  | some e =>
    simp only [Option.map_some, Option.getD_some]
    rw [withLent_latched]
    · rfl
    · exact hst

/-- Settles O48: the row's meaning writes IRQ_EN whatever BUSY is. -/
theorem irqEnableCommand : Obligations.IrqEnableCommand := fun _ _ _ => rfl

/-- After SOFT_RESET every offset of the window reads what it reads after reset (R141, R154). -/
theorem resetBlock_reads (offset : BitVec 8) (s : State) :
    (hostReadRegister offset (resetBlock s)).busRdata = (hostReadRegister offset State.reset).busRdata := by
  unfold hostReadRegister
  split <;> rfl

/-- SOFT_RESET changes no byte but those of an aborted decode's buffers (R141, R154). -/
theorem resetBlock_mem_outside {s : State} {x : Nat} (hx : s.busy = false ∨ (¬ inWork s x ∧ ¬ inOut s x)) :
    (resetBlock s).mem.read x = s.mem.read x := by
  rw [resetBlock_mem]
  cases hb : s.busy with
  | false => rfl
  | true =>
    obtain ⟨hwork, hout⟩ := hx.resolve_left (ne_false_of_eq_true hb)
    exact read_cloudBuffers_outside hwork hout

theorem resetBlock_mem_wf {s : State} (hm : s.mem.wf) : (resetBlock s).mem.wf := by
  rw [resetBlock_mem]
  split
  · exact cloudBuffers_wf hm
  · exact hm

/-- Settles O47: the registers are those of reset, and memory keeps its bytes outside an aborted decode's buffers. -/
theorem softResetCommand : Obligations.SoftResetCommand := by
  obtain ⟨-, -, -, hzero⟩ := resetReadsZero
  exact fun a b reserved s => ⟨resetBlock s, rfl, rfl, rfl, rfl, rfl, rfl,
    fun offset => (resetBlock_reads offset s).trans (hzero offset), fun _ => resetBlock_mem_outside, resetBlock_mem_wf,
    rfl, rfl, rfl⟩

/-- A host write of CTRL runs one of the three rows, by bits 1 and 0 (R138). -/
theorem step_ctrlWrite {s : State} {v : Word} (hw : hostWrites s 0x00#8 v) :
    step s = exec
      (if v.getLsbD 1 then .softReset (v.extractLsb' 0 1) (v.extractLsb' 2 1) (v.extractLsb' 3 29)
        else if v.getLsbD 0 then .start (v.extractLsb' 2 1) (v.extractLsb' 3 29)
        else .setIrqEn (v.extractLsb' 2 1) (v.extractLsb' 3 29)) (popHost s) := by
  rw [step_hostWrites hw, regWriteTurn_ctrl, Turn.outcome_element _ (decode_ctrlWrite v)]

/-- A one-bit field as the Boolean of its bit. -/
theorem extractLsb'_one_beq (v : Word) (k : Nat) : (v.extractLsb' k 1 == 1#1) = v.getLsbD k :=
  Bool.eq_iff_iff.2 (beq_iff_eq.trans (extractLsb'_one_eq v k))

/-- Settles O49: SOFT_RESET's row comes first, and both other rows write IRQ_EN before START is looked at. -/
theorem ctrlWriteOrder : Obligations.CtrlWriteOrder := by
  intro s v hw
  have hstep := step_ctrlWrite hw
  refine ⟨fun hreset => ?_, fun hreset hstart => ?_, fun hreset hstart hb => ?_, fun hreset hstart hb => ?_⟩
  · rw [hstep, if_pos hreset]; rfl
  all_goals rw [hreset, if_neg nofun, hstart] at hstep
  · rw [hstep, if_neg nofun, ← extractLsb'_one_beq v 2]; rfl
  · rw [hstep, if_pos rfl, exec_start_busy (s := popHost s) hb, extractLsb'_one_beq]
  · rw [hstep, if_pos rfl, exec_start_ready (s := popHost s) hb, extractLsb'_one_beq]

/-! ### STATUS -/

/-- The fields of STATUS as one number (R17). -/
theorem statusWord_toNat (s : State) : s.statusWord.toNat =
    s.busy.toNat + 2 * s.isDone.toNat + 4 * s.isError.toNat + 16 * (errorNumber s.errCode).toNat
      + 256 * (stateCode s.st).toNat + 4096 * (stateCode s.errState).toNat + 65536 * s.irq.toNat := by
  simp only [State.statusWord, toNat_append_eq_add, BitVec.toNat_ofBool, BitVec.toNat_ofNat]
  omega

/-- Settles O50: READ_STATUS reads the word and clears the ledger, and the word's fields do not overlap. -/
theorem statusRead : Obligations.StatusRead :=
  ⟨fun _ => rfl, fun _ h => step_hostReads h, statusWord_toNat⟩

/-! ### Configuration and read-only registers -/

/-- A configuration write with BUSY = 0 stores its registers (R25, R145). -/
theorem next_writeConfig {s : State} (hb : s.busy = false) (c : ConfigRegs) :
    (.next (writeConfig c s) : Host.Outcome State Fault Refusal) = .next { s with cfg := c } :=
  congrArg _ (writeConfig_ready hb)

/-- A configuration write with BUSY = 1 changes nothing (R25, R145). -/
theorem exec_regWrite_busy {i : Instr} (hf : formatOf i = .regWrite) {s : State} (hb : s.busy = true) :
    exec i s = .next s := by
  obtain ⟨c, hc, -⟩ := exec_regWrite hf s
  rw [hc, writeConfig_busy hb]

/-- The mask of IHDR_FMT1 is the remainder by 512 (R20). -/
theorem fmt1_eq (v : Word) : v &&& 0x1FF#32 = BitVec.ofNat 32 (v.toNat % 512) :=
  BitVec.eq_of_toNat_eq (by rw [fmt1_toNat, BitVec.toNat_ofNat]; omega)

/-- A host write of a read-only register is no element and changes nothing (R145). -/
theorem regWriteTurn_readOnly {offset : BitVec 8}
    (ho : offset ∈ [0x04#8, 0x28#8, 0x2C#8, 0x30#8, 0x34#8, 0x38#8, 0x3C#8, 0x40#8, 0x44#8, 0x48#8]) (v : Word) (s : State) :
    (regWriteTurn 4 offset v s).outcome = .next s := by
  rcases List.mem_cons.1 ho with rfl | ho
  · rfl
  · have hpast : ∀ o ∈ [0x28#8, 0x2C#8, 0x30#8, 0x34#8, 0x38#8, 0x3C#8, 0x40#8, 0x44#8, 0x48#8],
        o.toNat % 4 = 0 ∧ 0x24 < o.toNat := by decide
    obtain ⟨ha, hr⟩ := hpast offset ho
    exact regWriteTurn_reserved s ha hr

/-- Settles O51: a write with BUSY = 0 stores its word, one with BUSY = 1 or to a read-only offset changes nothing. -/
theorem configWriteCommands : Obligations.ConfigWriteCommands := by
  refine ⟨fun d s hb => ?_, fun d s i hb hi => ?_, fun d s offset ho hw => ?_⟩
  · have ready := next_writeConfig hb
    refine ⟨ready _, ready _, ready _, ?_, ready _, ready _, ready _, ready _⟩
    rw [← fmt1_eq]
    exact ready _
  · refine exec_regWrite_busy ?_ hb
    fin_cases hi <;> rfl
  · rw [step_hostWrites hw, regWriteTurn_readOnly ho]

end Sys2Proof.Machine
end

section
/-! PROOFS. Operation CONFIG_CHECK (46_control R140): the check of the restricted subset as numbers, the outcome of each check,
and the state of a passed one. -/

namespace Sys2Proof.Machine

/-! ### The registers as numbers -/

/-- A test of a field of a register, as a test of its number. -/
theorem registerField_eq_iff (v : Word) (k n : Nat) (x : BitVec n) :
    v.extractLsb' k n = x ↔ v.toNat / 2 ^ k % 2 ^ n = x.toNat := by
  rw [← BitVec.toNat_inj, BitVec.extractLsb'_toNat, Nat.shiftRight_eq_div_pow]

/-- The registers describe an image of the restricted subset (R140). -/
def ConfigRegs.supported (c : ConfigRegs) : Bool :=
  formatSupported c.ihdrWidth c.ihdrHeight c.bitDepth c.colorType c.compression c.filter c.interlace

/-- The restricted subset of R140, by the fields of R18 to R20. -/
theorem ConfigRegs.supported_iff (c : ConfigRegs) : c.supported = true ↔
    c.ihdrFmt0.toNat % 256 = 8 ∧ (c.ihdrFmt0.toNat / 256 % 256 = 2 ∨ c.ihdrFmt0.toNat / 256 % 256 = 6)
      ∧ c.ihdrFmt0.toNat / 65536 % 256 = 0 ∧ c.ihdrFmt0.toNat / 16777216 = 0 ∧ c.ihdrFmt1.toNat % 256 = 0
      ∧ c.ihdrWidth.toNat ≠ 0 ∧ c.ihdrHeight.toNat ≠ 0 := by
  have htop : c.ihdrFmt0.toNat / 2 ^ 24 % 2 ^ 8 = c.ihdrFmt0.toNat / 16777216 := by
    have := c.ihdrFmt0.isLt
    omega
  have hzero (v : Word) : v = 0 ↔ v.toNat = 0 := BitVec.toNat_inj.symm
  simp only [supported, formatSupported, bitDepth, colorType, compression, filter, interlace, Bool.and_eq_true,
    Bool.or_eq_true, beq_iff_eq, bne_iff_ne, ne_eq, and_assoc, registerField_eq_iff, htop, hzero]
  simp

/-- Bytes per pixel by the number of the colour type (R140). -/
theorem ConfigRegs.bytesPerPixel_colorType (c : ConfigRegs) :
    bytesPerPixel c.colorType = if c.ihdrFmt0.toNat / 256 % 256 = 2 then 3 else 4 := by
  have h : c.colorType = 2 ↔ c.ihdrFmt0.toNat / 256 % 256 = 2 :=
    registerField_eq_iff c.ihdrFmt0 8 8 2
  exact if_congr h rfl rfl

/-! ### The checks -/

/-- The registers and the bytes per pixel of their colour type latched (R29, R140). -/
def latchImage (s : State) : State :=
  { latchConfig s with
    lat := { (latchConfig s).lat with bpp := BitVec.ofNat 3 (bytesPerPixel s.cfg.colorType) } }

/-- The exact size of the work buffer that the registers ask for (R140). -/
def ConfigRegs.imageWorkBytes (c : ConfigRegs) : Nat :=
  workBytes c.ihdrWidth.toNat c.ihdrHeight.toNat (bytesPerPixel c.colorType)

/-- CONFIG_CHECK as its four checks in order (R140, R148). -/
theorem configCheckWith_eq (maxWork : Nat) (s : State) : configCheckWith maxWork s =
    if s.cfg.ihdrPresent = false then .raise .missingHeaderOrData (latchConfig s)
    else if s.cfg.supported = false then .raise .unsupportedImageFormat (latchConfig s)
    else if s.cfg.segCount = 0 then .raise .missingHeaderOrData (latchConfig s)
    else if maxWork < s.cfg.imageWorkBytes then .raise .unsupportedImageFormat (latchImage s)
    else beginStream (latchSizes (bytesPerPixel s.cfg.colorType) (latchImage s)) := rfl

section
variable {maxWork : Nat} {s : State}

theorem configCheckWith_noHeader (hp : s.cfg.ihdrPresent = false) :
    configCheckWith maxWork s = .raise .missingHeaderOrData (latchConfig s) := if_pos hp

variable (hp : s.cfg.ihdrPresent = true)
include hp

theorem configCheckWith_unsupported (hf : s.cfg.supported = false) :
    configCheckWith maxWork s = .raise .unsupportedImageFormat (latchConfig s) := by
  rw [configCheckWith_eq, if_neg (ne_false_of_eq_true hp), if_pos hf]

variable (hf : s.cfg.supported = true)
include hf

theorem configCheckWith_noSegments (hn : s.cfg.segCount = 0) :
    configCheckWith maxWork s = .raise .missingHeaderOrData (latchConfig s) := by
  rw [configCheckWith_eq, if_neg (ne_false_of_eq_true hp), if_neg (ne_false_of_eq_true hf), if_pos hn]

variable (hn : s.cfg.segCount ≠ 0)
include hn

theorem configCheckWith_tooLarge (hw : maxWork < s.cfg.imageWorkBytes) :
    configCheckWith maxWork s = .raise .unsupportedImageFormat (latchImage s) := by
  rw [configCheckWith_eq, if_neg (ne_false_of_eq_true hp), if_neg (ne_false_of_eq_true hf), if_neg hn, if_pos hw]

theorem configCheckWith_passes (hw : s.cfg.imageWorkBytes ≤ maxWork) :
    configCheckWith maxWork s = beginStream (latchSizes (bytesPerPixel s.cfg.colorType) (latchImage s)) := by
  rw [configCheckWith_eq, if_neg (ne_false_of_eq_true hp), if_neg (ne_false_of_eq_true hf), if_neg hn,
    if_neg (not_lt.2 hw)]

end

/-- The sizes of a passed check are the exact products (R140). -/
theorem latchedSizes_exact {s : State} (hf : s.cfg.supported = true) (hfit : s.cfg.imageWorkBytes < 2 ^ 32) :
    let u := latchSizes (bytesPerPixel s.cfg.colorType) (latchImage s)
    u.lat.stride.toNat = s.cfg.ihdrWidth.toNat * bytesPerPixel s.cfg.colorType
      ∧ u.sizes.workSize.toNat = s.cfg.imageWorkBytes
      ∧ u.sizes.outSize.toNat = s.cfg.ihdrHeight.toNat * (s.cfg.ihdrWidth.toNat * bytesPerPixel s.cfg.colorType) := by
  obtain ⟨-, -, -, -, -, hw, hh⟩ := s.cfg.supported_iff.1 hf
  have hbpp : bytesPerPixel s.cfg.colorType = 3 ∨ bytesPerPixel s.cfg.colorType = 4 := by
    unfold bytesPerPixel; split <;> simp
  obtain ⟨-, -, -, -, hstride, hwork, hout⟩ := sized_latchSizes (s := latchImage s) hbpp rfl
    (fun h => hw (congrArg BitVec.toNat h)) (fun h => hh (congrArg BitVec.toNat h)) hfit
  have hlat : (latchImage s).lat.bpp.toNat = bytesPerPixel s.cfg.colorType :=
    Nat.mod_eq_of_lt (by rcases hbpp with h | h <;> rw [h] <;> decide)
  have hrow := hstride.trans (congrArg _ hlat)
  rw [hrow] at hwork hout
  exact ⟨hrow, hwork, hout⟩

/-! ### A passed check -/

section
variable {s : State}

theorem beginStream_unfit (hfit : regionsFit s = false) : beginStream s = .refuse .regionBeyondMemory := by
  rw [beginStream, hfit]; rfl

variable (hfit : regionsFit s = true)
include hfit

theorem beginStream_overlapping (hd : buffersDisjoint s = false) : beginStream s = .refuse .regionsOverlap := by
  rw [beginStream, hfit, hd]; rfl

/-- The decode starts with the cursor on the first bit of segment 0 (R74, R140). -/
theorem beginStream_starts (hd : buffersDisjoint s = true) (hn : s.lat.nseg ≠ 0) :
    beginStream s = .ok () { s with
      st := .zlibHeader
      phase := .boundary
      cur := ⟨0, s.mem.readLe32 s.lat.segtab.toNat, s.mem.readLe32 (s.lat.segtab.toNat + 4), 0⟩ } := by
  have hpos : 0 < s.lat.nseg.toNat := Nat.pos_of_ne_zero fun h => hn (BitVec.eq_of_toNat_eq h)
  rw [beginStream, hfit, hd, cursorInit, loadSegment_all (placed_of_regionsFit hfit).1 hpos]
  rfl

end

/-! ### The operation -/

theorem step_configCheck {s : State} (hm : engineMoves s) (hst : s.st = .configCheck) :
    step s = (configCheckWith Config.maxWorkBytes (tickHost s)).finish := by
  rw [step_engine hm, engineTurn, tickHost_st, hst]; rfl

/-- Settles O55: the first failing check raises, else the duties decide between the refusals and ZLIB_HEADER. -/
theorem configCheckOperation : Obligations.ConfigCheckOperation := by
  refine ⟨fun s => step_configCheck, Nat.le_max_left _ _, maxWorkBytes_lt, ?_⟩
  rintro maxWork s l _ _ _ _ _ _ _ bpp o hmax ho rfl rfl rfl rfl rfl rfl rfl hbpp rfl
  obtain rfl : bpp = bytesPerPixel s.cfg.colorType := by rw [hbpp, s.cfg.bytesPerPixel_colorType]
  refine ⟨fun hp => ?_, fun hp hbad => ?_, fun hp hgood => ?_⟩
  · rw [ho, configCheckWith_noHeader hp]; rfl
  · have hf : s.cfg.supported = false := by
      rw [← Bool.not_eq_true, s.cfg.supported_iff]
      omega
    rw [ho, configCheckWith_unsupported hp hf]; rfl
  · have hf := s.cfg.supported_iff.2 hgood
    refine ⟨fun hn => ?_, fun hn hlarge => ?_, fun u hu hn hwork => ?_⟩
    · rw [ho, configCheckWith_noSegments hp hf hn]; rfl
    · rw [ho, configCheckWith_tooLarge hp hf hn hlarge]; rfl
    · obtain rfl : u = latchSizes (bytesPerPixel s.cfg.colorType) (latchImage s) := hu
      rw [configCheckWith_passes hp hf hn hwork] at ho
      refine ⟨latchedSizes_exact hf (hwork.trans_lt hmax), fun hfit hd => ?_, fun hfit => ?_, fun hfit hd => ?_⟩
      · rw [ho, beginStream_starts hfit hd hn]; rfl
      · rw [ho, beginStream_unfit hfit]; rfl
      · rw [ho, beginStream_overlapping hfit hd]; rfl

end Sys2Proof.Machine
end

section
/-! PROOFS. Error entry (60_exceptions R147, R148): a raise in the fetch of a selector, and what a step into ERROR records
and keeps. -/

namespace Sys2Proof.Machine

/-! ### A raise in the fetch -/

/-- A turn whose fetch raises answers the error entry of the state at the raise (R147). -/
theorem step_fetchRaised {s t : State} {x : Run Nat} {f : Format} {e : ErrorCode} (hturn : turn s = x.element f)
    (hx : x = .raise e t) : step s = .next (enterError e t) := by
  rw [step_eq, hturn, hx]
  rfl

/-- Settles O6: the turn of each of the five formats is its fetch, and a fetch that raises is the error entry. -/
theorem failedFetchEntersError : Obligations.FailedFetchEntersError := by
  intro s e t
  refine ⟨fun hm hst hx => ?zlibCmf, fun hm hst hx => ?blockHeader, fun hp hn hx => ?clSymbol,
    fun hm hst hx => ?litlenSymbol, fun hp hx => ?distSymbol⟩
  case zlibCmf => exact step_fetchRaised (turn_zlibHeader hm hst) (by rw [hx, Run.bind_raise])
  case blockHeader => exact step_fetchRaised (turn_blockHeader hm hst) hx
  case clSymbol => exact step_fetchRaised (turn_nextLength hp hn) hx
  case litlenSymbol => exact step_fetchRaised (turn_blockBody hm hst) hx
  case distSymbol => exact step_fetchRaised (turn_distSymbol hp) hx

/-! ### Who enters ERROR -/

theorem blockEnd_st_ne_error (s : State) : (blockEnd s).st ≠ .error := by
  rw [blockEnd_st]
  split <;> nofun

/-- A change of the engine's into ERROR is a recorded raise: no other row of R98 leads there. -/
theorem EngineChange.fails {s t : State} (h : EngineChange s t) (hne : s.st ≠ .error) (ht : t.st = .error) :
    Fails s.st t := by
  cases h with
  | continues h => exact h.resolve_left fun hst => hne (hst.symm.trans ht)
  | bytesCopied h | blockEnded h => exact absurd (h.2.1.symm.trans ht) (blockEnd_st_ne_error s)
  | storedType h | fixedType h | dynamicType h => cases h.2.2.symm.trans ht
  | sizeReached h =>
    obtain ⟨-, -, hst, -⟩ := h
    cases hst.symm.trans ht
  | checkPassed h | headerRead h | fixedBuilt h | dynamicBuilt h | trailerRead h | lastRow h =>
    cases h.2.1.symm.trans ht

/-- No move of the host enters ERROR: a START goes to CONFIG_CHECK, a reset to IDLE (R98). -/
theorem HostChange.keeps_out_of_error {s t : State} (h : HostChange s t) (hne : s.st ≠ .error) : t.st ≠ .error := by
  cases h with
  | stays h => rwa [h]
  | starts h => rw [h.1]; nofun
  | resets h => rw [h.1]; nofun

/-- A step into ERROR is the engine's, inside an operation or at its boundary. -/
theorem engineMoves_of_error_entry {s t : State} (h : step s = .next t) (hne : s.st ≠ .error) (ht : t.st = .error) :
    s.phase = .boundary → engineMoves s := by
  intro hp
  rcases turn_cases s with hp' | hp' | hm | ⟨a, ha⟩
  · cases hp.symm.trans hp'
  · cases hp.symm.trans hp'
  · exact hm
  · exact absurd ht ((host_change ha h).keeps_out_of_error hne)

/-! ### The sizes at error entry -/

theorem busyState_cases {st : EngineState} (h : busyState st = true) :
    st = .configCheck ∨ decodingState st = true := by
  cases st with
  | idle | done | error => cases h
  | configCheck => exact .inl rfl
  | _ => exact .inr rfl

/-- CONFIG_CHECK is one step (R140): the engine is at its boundary. -/
theorem Inv.boundary_of_configCheck {s : State} (hi : Inv s) (hst : s.st = .configCheck) : s.phase = .boundary := by
  match hp : s.phase with
  | .boundary => rfl
  | .clSymbols => cases hst.symm.trans (hi.codePhase hp)
  | .distSymbol => cases hst.symm.trans (hi.matchPhase hp)

/-- A configuration check that raises leaves the sizes as they were (R140, R22). -/
theorem configCheck_failed_sizes {s t : State} (hm : engineMoves s) (hst : s.st = .configCheck) (h : step s = .next t)
    (ht : t.st = .error) : t.sizes = s.sizes := by
  rw [step_configCheck hm hst] at h
  rcases (configCheckWith_all Config.maxWorkBytes (tickHost s)).finish h with
    ⟨bpp, -, -, -, -, -, -, -, u, -, -, hpass⟩ | ⟨e, u, ⟨-, l, rfl⟩, rfl⟩
  · rw [hpass] at ht
    cases ht
  · exact tickHost_sizes s

/-- Settles O57: only a raise of the engine's leads to ERROR, and the engine's step keeps what R147 keeps. -/
theorem errorEntryRecorded : Obligations.ErrorEntryRecorded := by
  intro s t hi h hne ht
  have hm := engineMoves_of_error_entry h hne ht
  obtain ⟨-, hb, hstate, hcode⟩ := (engine_change hi hm h).fails hne ht
  obtain ⟨hinv, hcfg, hkeeps⟩ := engine_step hi hm h
  obtain ⟨hirq, hother⟩ := engine_frame hi hm h
  obtain ⟨-, hsignature, -⟩ := hinv.errorKept ht
  have hcheck (hst : s.st = .configCheck) : t.sizes = s.sizes :=
    configCheck_failed_sizes (hm (hi.boundary_of_configCheck hst)) hst h ht
  have hsizes : t.sizes = s.sizes := (busyState_cases hb).elim hcheck fun hd => (hkeeps hd).sizes
  exact ⟨hb, hstate, hcode, hsignature, hirq, hcfg, hsizes, fun hst => hsizes.trans (hi.sizesZero (.inr hst)),
    by rw [State.busy, ht]; rfl, by rw [State.isDone, ht]; rfl, hother⟩

end Sys2Proof.Machine
end

section
/-! PROOFS. A decode past its configuration check never stops (R162): every number the engine fetches is a selector of a row,
and every operation answers a next state. -/

namespace Sys2Proof.Machine

/-! ### Every fetched number has a row -/

/-- The domain of `decode`, for a number fetched by the engine: the two formats of the host's registers are left out. -/
theorem decodable_ofNat {f : Format} {v : Nat} (hv : v < 2 ^ f.width) (hcl : f = .clSymbol → v < 19)
    (hll : f = .litlenSymbol → v < 288) (hread : f ≠ .regRead) (hwrite : f ≠ .regWrite) :
    Decodable (decode f (BitVec.ofNat 40 v)) := by
  have hwidth : f.width ≤ 40 := by cases f <;> decide
  have hw : (BitVec.ofNat 40 v).toNat = v :=
    Nat.mod_eq_of_lt (hv.trans_le (Nat.pow_le_pow_right Nat.two_pos hwidth))
  exact (decodeTotal f _).2 ⟨hw.symm ▸ hv, fun h => hw.symm ▸ hcl h, fun h => hw.symm ▸ hll h,
    fun h => absurd h hread, fun h => absurd h hwrite⟩

theorem decodable_cmf (b : Byte) : Decodable (decode .zlibCmf (BitVec.ofNat 40 b.toNat)) :=
  decodable_ofNat b.isLt nofun nofun nofun nofun

theorem decodable_blockHeader {v : Nat} (h : v < 8) : Decodable (decode .blockHeader (BitVec.ofNat 40 v)) :=
  decodable_ofNat h nofun nofun nofun nofun

theorem decodable_clSymbol {v : Nat} (h : v < clCap) : Decodable (decode .clSymbol (BitVec.ofNat 40 v)) :=
  decodable_ofNat (h.trans (by decide)) (fun _ => h) nofun nofun nofun

theorem decodable_litlenSymbol {v : Nat} (h : v < llCap) : Decodable (decode .litlenSymbol (BitVec.ofNat 40 v)) :=
  decodable_ofNat (h.trans (by decide)) nofun (fun _ => h) nofun nofun

theorem decodable_distSymbol {v : Nat} (h : v < distCap) : Decodable (decode .distSymbol (BitVec.ofNat 40 v)) :=
  decodable_ofNat h nofun nofun nofun nofun

theorem decodable_filterType (b : Byte) : Decodable (decode .filterType (BitVec.ofNat 40 b.toNat)) :=
  decodable_ofNat b.isLt nofun nofun nofun nofun

/-! ### Elements -/

/-- The outcome is a next state: neither a fault nor a refusal. -/
def GoesOn (o : Host.Outcome State Fault Refusal) : Prop := ∃ t, o = .next t

theorem Answers.goesOn {s : State} {o : Host.Outcome State Fault Refusal} (h : Answers s o) : GoesOn o := by
  obtain ⟨t, ho, -⟩ := h
  exact ⟨t, ho⟩

/-- An element's step goes on if the fetch does not stop and yields a selector whose rows answer a next state. -/
theorem Run.All.element_goesOn {x : Run Nat} {f : Format} {R : ErrorCode → State → Prop}
    (hx : x.All False (fun v u => Decodable (decode f (BitVec.ofNat 40 v)) ∧ ∀ i, formatOf i = f → Answers u (exec i u)) R) :
    GoesOn (x.element f).outcome := by
  cases x with
  | ok v u =>
    obtain ⟨⟨i, hdec⟩, ha⟩ := hx
    rw [Run.element, Turn.outcome_element u hdec]
    exact (ha i (decode_format hdec)).goesOn
  | raise e u => exact ⟨_, rfl⟩
  | fault r => exact hx.elim
  | refuse r => exact hx.elim

/-- A symbol fetched through a built table is one of the table's, so it has a row (R93). -/
theorem huffman_goesOn {s : State} {k : TableShape} {lens : List Nat} {d : Nat} {f : Format} (hi : Inv s)
    (hd : s.decoding = true) (hz : s.st ≠ .zlibHeader) (hk : k.Fits) (hn : lens.length ≤ k.cap)
    (hrow : ∀ v, v < k.cap → Decodable (decode f (BitVec.ofNat 40 v)))
    (he : ∀ u, MovesCursor s u → Inv u → ∀ i, formatOf i = f → Answers u (exec i u)) :
    GoesOn ((huffDecode (build k lens d) s).element f).outcome := by
  refine Run.All.element_goesOn ((huffDecode_build hk d hn s).imp (fun h => h (hi.tableReadable hd)) ?_ fun _ _ h => h)
  rintro v u ⟨hm, hv, hc⟩
  exact ⟨hrow v (hv.trans_le hn), he u hm (hi.moved hd hm hc fun h => absurd h hz)⟩

/-! ### The elements at a boundary -/

theorem zlibHeader_goesOn {s : State} (hi : Inv s) (hst : s.st = .zlibHeader) :
    GoesOn (((readByte s).bind fun b s => .ok b.toNat s).element .zlibCmf).outcome := by
  have hd := decoding_of_st hst rfl
  refine Run.All.element_goesOn (Run.All.bind
    ((readByte_all s).imp (fun h => h (hi.tableReadable hd)) (fun _ _ h => h) fun _ _ h => h) ?_)
  rintro b u ⟨hm, hb⟩
  have hbit := hb.trans (hi.aligned hst)
  have hu := hi.moved hd hm (Cursor.sound_of_bit hbit) fun _ => hbit
  exact ⟨decodable_cmf b, fun i hf => exec_zlibCmf_answers hu (by rw [hm]; exact hst) hf⟩

theorem blockHeader_goesOn {s : State} (hi : Inv s) (hst : s.st = .blockHeader) :
    GoesOn ((readBlockHeader s).element .blockHeader).outcome := by
  have hd := decoding_of_st hst rfl
  refine Run.All.element_goesOn
    ((readBlockHeader_all s).imp (fun h => h (hi.tableReadable hd)) ?_ fun _ _ h => h)
  rintro v u ⟨hu, hv, hc⟩
  have hiu := hi.fetched hd hu (hc (hi.sound hd)) (by rw [hst]; nofun)
  exact ⟨decodable_blockHeader hv, fun i hf => exec_blockHeader_answers hiu (by rw [hu]; exact hst) hf⟩

theorem blockBody_goesOn {s : State} (hi : Inv s) (hst : s.st = .blockBody) (hp : s.phase = .boundary) :
    GoesOn ((huffDecode s.ll s).element .litlenSymbol).outcome := by
  obtain ⟨⟨lens, d, hn, hll⟩, -⟩ := hi.tablesBuilt hst
  rw [hll]
  exact huffman_goesOn hi (decoding_of_st hst rfl) (by rw [hst]; nofun) llShape_fits hn
    (fun _ => decodable_litlenSymbol)
    fun u hm hu i hf => exec_litlenSymbol_answers hu (by rw [hm]; exact hst) (by rw [hm]; exact hp) hf

/-- The filter-type byte of the current row lies in memory (R42 duty 1, R127, R128). -/
theorem Inv.filterTypeAddress_lt {s : State} (hi : Inv s) (hst : s.st = .filter) : filterTypeAddress s < memBytes := by
  obtain ⟨hx, -⟩ := hi.row_inside hst
  unfold filteredAddress at hx
  unfold filterTypeAddress
  omega

theorem filter_goesOn {s : State} (hi : Inv s) (hst : s.st = .filter) :
    GoesOn (((memRead (filterTypeAddress s) s).bind fun b s => .ok b.toNat s).element .filterType).outcome := by
  have ha := hi.filterTypeAddress_lt hst
  refine Run.All.element_goesOn (Run.All.bind
    ((memRead_all _ s).imp (fun h => absurd h (not_le.2 ha)) (fun _ _ h => h) fun _ _ h => h) ?_)
  rintro b u ⟨rfl, -⟩
  exact ⟨decodable_filterType b, fun i hf => exec_filterType_answers hi hst hf⟩

/-! ### The engine's turn -/

/-- At a boundary the engine goes on, state by state (R98, R162). -/
theorem engineTurn_goesOn {s : State} (hi : Inv s) (hd : s.decoding = true) (hp : s.phase = .boundary) :
    GoesOn (engineTurn s).outcome := by
  unfold engineTurn
  match hst : s.st with
  | .idle | .configCheck | .done | .error => rw [State.decoding, hst] at hd; cases hd
  | .zlibHeader => exact zlibHeader_goesOn hi hst
  | .blockHeader => exact blockHeader_goesOn hi hst
  | .storedBlock => exact (runStoredBlock_answers hi hst).goesOn
  | .fixedTables => exact (runFixedTables_answers hi hst).goesOn
  | .dynamicTables => exact (runDynHeader_answers hi hst hp).goesOn
  | .blockBody => exact blockBody_goesOn hi hst hp
  | .trailer => exact (runTrailer_answers hi hst).goesOn
  | .sizeCheck => exact (runSizeCheck_answers hi hst).goesOn
  | .filter => exact filter_goesOn hi hst

/-- Inside DYNAMIC_TABLES the engine goes on: the next code-length symbol, or the split of the lengths (R108, R113). -/
theorem clSymbols_goesOn {s : State} (hi : Inv s) (hp : s.phase = .clSymbols) : GoesOn (turn s).outcome := by
  rw [turn_clSymbols hp]
  split
  · exact (runDynFinish_answers hi hp).goesOn
  · rename_i hc
    have hst := hi.codePhase hp
    obtain ⟨lens, d, hn, hclt⟩ := hi.codeTable hp
    rw [hclt]
    exact huffman_goesOn hi (decoding_of_st hst rfl) (by rw [hst]; nofun) cltShape_fits hn.le
      (fun _ => decodable_clSymbol)
      fun u hm hu i hf => exec_clSymbol_answers hu (by rw [hm]; exact hp)
        (by rw [hm]; exact Bool.eq_false_of_not_eq_true hc) hf

/-- Inside a match the engine goes on with its distance symbol (R120). -/
theorem distSymbol_goesOn {s : State} (hi : Inv s) (hp : s.phase = .distSymbol) : GoesOn (turn s).outcome := by
  have hst := hi.matchPhase hp
  obtain ⟨-, lens, d, hn, hdt⟩ := hi.tablesBuilt hst
  rw [turn_distSymbol hp, hdt]
  exact huffman_goesOn hi (decoding_of_st hst rfl) (by rw [hst]; nofun) dtShape_fits hn
    (fun _ => decodable_distSymbol) fun u hm hu i hf => exec_distSymbol_answers hu (by rw [hm]; exact hp) hf

/-- Settles O9, by the phase: inside an operation and at its boundary the engine's turn answers a next state. -/
theorem engineNeverStops : Obligations.EngineNeverStops := by
  intro s hi hd hm
  rw [step_eq]
  match hp : s.phase with
  | .clSymbols => exact clSymbols_goesOn hi hp
  | .distSymbol => exact distSymbol_goesOn hi hp
  | .boundary =>
    have htick : Inv (tickHost s) := by rw [tickHost_eq]; exact { hi with }
    rw [turn_engine (hm hp)]
    exact engineTurn_goesOn htick (by simpa [State.decoding] using hd) (by simpa using hp)

end Sys2Proof.Machine
end
